-- ==== Sys2Proof/Word.lean ====
section
/-!
DEFINITION. Word.lean: the words of the part, as the ring carries them.
-/
namespace Sys2Proof

/-- One byte of a frame (R1). -/
abbrev Byte := BitVec 8

/-- A 32-bit quantity: a slot value, an argument word, a result word, a CRC (R10, R13, R2). -/
abbrev Word := BitVec 32

/-- A 16-bit quantity: a cycle number, a tag, a counter, a bank generation, a fault detail (R7, R11, R192, R96, R188). -/
abbrev Half := BitVec 16

/-- A frame as its bytes, byte 0 first (R1). -/
abbrev Frame := List Byte

end Sys2Proof
end

