-- ==== Sys2Proof/Syntax.lean ====
section
/-!
DEFINITION. Syntax.lean: the commands of the part, one constructor for each row of spec/opcode_table.json.
A row is one whole step (95_what_each_step_holds.md). An operand is what the step carries from outside the state.
-/
namespace Sys2Proof

/-- The two ring ports (R21). -/
inductive Port where
  | inPort
  | outPort
deriving DecidableEq, Repr

/-- Why reception ends without completion (R22). -/
inductive AbortCause where
  /-- IN changes to DOWN while a frame is being received. -/
  | lineDown
  /-- A 1537th byte arrives before the end delimiter. -/
  | tooLong
  /-- A line code that is neither a data byte nor a delimiter arrives inside the frame. -/
  | brokenCode
  /-- A second start delimiter arrives; reception of a new frame begins there. -/
  | secondStart
deriving DecidableEq, Repr

/-- The requests of RESUME after its mode test, in their order (R179). -/
inductive ResumeStep where
  /-- Step 1: the SE clears the dynamic records. -/
  | records
  /-- Step 2: the RPU sets the station mode to RUNNING. -/
  | mode
  /-- Step 3: the CP builds the reply. -/
  | reply
deriving DecidableEq, Repr

/-- The requests of RESET after the CP's own part, in their order (R185, R186). -/
inductive ResetStep where
  /-- The SE resets. -/
  | se
  /-- The IQ's lifetime setting and hold counter reset (level ALL). -/
  | iq
  /-- The RPU's last cycle seen and mode reset (level ALL). -/
  | rpu
  /-- The MU resets (level ALL). -/
  | mu
  /-- The CP builds the reply. -/
  | reply
deriving DecidableEq, Repr

/-- The commands: the rows of the table of operations and events. -/
inductive Instr where
  /-- RESET_PIN_ASSERTED (R182). -/
  | resetPinAsserted
  /-- RESET_PIN_RELEASED (R183). -/
  | resetPinReleased
  /-- LINE_ACQUIRED at a port (R21). -/
  | lineAcquired (port : Port)
  /-- LINE_LOST at a port (R21). -/
  | lineLost (port : Port)
  /-- RX_ABORT with its cause (R22). -/
  | rxAbort (cause : AbortCause)
  /-- RECEIVE_SAMPLE: a SAMPLE frame with a good CRC, valid or malformed, as received (R24, R25). -/
  | receiveSample (frame : Frame)
  /-- RECEIVE_DAMAGED: a frame of 5 bytes or more whose CRC does not match (R3). -/
  | receiveDamaged (frame : Frame)
  /-- RECEIVE_COMMAND: a COMMAND frame with a good CRC, valid or malformed (R26). -/
  | receiveCommand (frame : Frame)
  /-- RECEIVE_REPLY: a REPLY frame with a good CRC, valid or malformed (R27). -/
  | receiveReply (frame : Frame)
  /-- RECEIVE_ENUMERATE: a valid ENUMERATE frame (R174). -/
  | receiveEnumerate (frame : Frame)
  /-- RECEIVE_FOREIGN: a FOREIGN frame, a frame with no kind, or a malformed ENUMERATE (R28). -/
  | receiveForeign (frame : Frame)
  /-- SAMPLE_EVALUATION (R48). -/
  | sampleEvaluation
  /-- LOST_SAMPLE (R25, R48). -/
  | lostSample
  /-- SEND_FORWARD_BEGIN (R31). -/
  | sendForwardBegin
  /-- SEND_REPLY_BEGIN (R37). -/
  | sendReplyBegin
  /-- FRAME_FORWARDED (R32). -/
  | frameForwarded
  /-- REPLY_SENT (R32). -/
  | replySent
  /-- OUT_DISCARD (R33). -/
  | outDiscard
  /-- REPLY_EXPIRED: the reply at this position of the reply queue, the head being 0 (R38). -/
  | replyExpired (position : Nat)
  /-- IDENTIFY (R146). -/
  | identify
  /-- READ_STATUS (R147). -/
  | readStatus
  /-- DEFINE_AXIS (R148). -/
  | defineAxis
  /-- CLEAR_AXIS (R149). -/
  | clearAxis
  /-- DEFINE_TRACK (R150). -/
  | defineTrack
  /-- CLEAR_TRACK (R151). -/
  | clearTrack
  /-- LOAD_WINDOWS (R152). -/
  | loadWindows
  /-- STAGE_COPY (R154). -/
  | stageCopy
  /-- STAGE_CLEAR (R155). -/
  | stageClear
  /-- DEFINE_STATUS_SLOT (R153). -/
  | defineStatusSlot
  /-- COMMIT (R107). -/
  | commit
  /-- CANCEL_COMMIT (R118). -/
  | cancelCommit
  /-- READ_AXIS (R158). -/
  | readAxis
  /-- READ_TRACK (R159). -/
  | readTrack
  /-- READ_WINDOWS (R160). -/
  | readWindows
  /-- READ_POOL (R161). -/
  | readPool
  /-- READ_FAULT (R162). -/
  | readFault
  /-- CLEAR_FAULT (R163). -/
  | clearFault
  /-- READ_COUNTERS (R164). -/
  | readCounters
  /-- SET_ATTENTION_MASK (R165). -/
  | setAttentionMask
  /-- ACK_ATTENTION (R166). -/
  | ackAttention
  /-- SET_REPLY_LIFETIME (R167). -/
  | setReplyLifetime
  /-- BYPASS (R177). -/
  | bypass
  /-- RESUME (R179). -/
  | resume
  /-- RELEASE_ADDRESS: both its requests, or one of them where `State.pauses` parts them (R180; log entry 7). -/
  | releaseAddress
  /-- RESET at level TABLES (R185). -/
  | resetTables
  /-- RESET at level ALL (R186). -/
  | resetAll
  /-- UNKNOWN_COMMAND: a command whose code is not in Table 1-7 (R135). -/
  | unknownCommand
  /-- VALIDATION_COMPLETE (R109, R110). -/
  | validationComplete
  /-- COPY_COMPLETE (R99). -/
  | copyComplete
  /-- CLEAR_COMPLETE (R100). -/
  | clearComplete
  /-- COMMIT_DROP: BYPASS's two requests behind its mode, or one of them where `State.pauses` parts them (R120, R177;
  log entry 7). -/
  | commitDrop
  /-- DYNAMIC_RECORD_CLEAR: RESUME's requests from the one that is due up to `last` (R179; log entry 7). -/
  | dynamicRecordClear (last : ResumeStep)
  /-- SE_TABLE_RESET: RESET's requests from the one that is due up to `last` (R123, R185, R186; log entry 7). -/
  | seTableReset (last : ResetStep)
deriving DecidableEq, Repr

end Sys2Proof
end

