-- ==== Sys2Proof/Config.lean ====
section
/-!
DEFINITION. Config.lean: what the part fixes (its capacities) and the one free choice the manual leaves.
-/
namespace Sys2Proof

/-- Places of the forward queue (R29). -/
def Config.forwardPlaces : Nat := 2

/-- Places of the IQ: reply entries plus reserved places (R35). -/
def Config.replyPlaces : Nat := 6

/-- Places of the command queue, the executing command included (R124). -/
def Config.commandPlaces : Nat := 4

/-- Entries of the retry table (R131). -/
def Config.retryPlaces : Nat := 4

/-- Entries of one bank's window pool (R72). -/
def Config.poolEntries : Nat := 256

/-- Windows of one list (R71). -/
def Config.listWindows : Nat := 16

/-- Bytes of the receive buffer (R22). -/
def Config.receiveBytes : Nat := 1536

/-- The reply lifetime setting after the reset pin and after RESET ALL, in ms (R42, R43). -/
def Config.defaultLifetime : Nat := 20

/-- The free choice of R190: which of the reports of one frame the MU takes first.
The manual fixes no order among them. Its argument is the model's choice counter. Log entry 4. -/
opaque Config.freeChoice : Nat → Nat

end Sys2Proof
end

