-- ==== Sys2Proof/Machine/State.lean ====
section
/-!
DEFINITION. Machine/State.lean: everything the part holds, block by block (RPU, IQ, SE, CP, MU), as plain data.
-/
namespace Sys2Proof.Machine

/-! ### The RPU (chapter 2) -/

/-- The link state of a port (R21). -/
inductive Link where
  | down
  | up
deriving DecidableEq, Repr

/-- The station mode (R40). -/
inductive Mode where
  | unaddressed
  | running
  | bypass
deriving DecidableEq, Repr

/-- The state of a forward queue entry (R29). -/
inductive EntryState where
  | inEvaluation
  | ready
deriving DecidableEq, Repr

/-- One entry of the forward queue (R29). -/
structure ForwardEntry where
  frame : Frame
  state : EntryState
deriving DecidableEq, Repr

/-- What the RPU has handed to the SE and the SE has not taken: a SAMPLE frame (R24) or a lost sample (R25). -/
inductive Handed where
  | sample
  | lost
deriving DecidableEq, Repr

/-- The output arbiter (R31). The reply being sent has left the reply queue (R37). -/
inductive Arbiter where
  | idle
  | sendingForward
  | sendingReply (reply : Frame)
deriving DecidableEq, Repr

/-- The Ring Port Unit. -/
structure Rpu where
  /-- Link state of IN (R21). -/
  linkIn : Link
  /-- Link state of OUT (R21). -/
  linkOut : Link
  /-- The line of IN has yet to be acquired for the first time since the reset pin (R21, R183). -/
  startIn : Bool
  /-- The line of OUT has yet to be acquired for the first time since the reset pin (R21, R183). -/
  startOut : Bool
  /-- The bytes of the frame being received, or none (R22). -/
  receiving : Option (List Byte)
  /-- The forward queue, head first (R29). -/
  forward : List ForwardEntry
  /-- Frames and announcements on their way to the SE, in the order handed over (R24, R25, R48). -/
  handed : List Handed
  /-- The output arbiter (R31). -/
  arbiter : Arbiter
  /-- The station address (R40). -/
  address : Byte
  /-- The station mode (R40). -/
  mode : Mode
  /-- The last cycle seen, none while unknown (R41). -/
  lastCycle : Option Half
deriving DecidableEq, Repr

/-! ### The IQ (section 2.6) -/

/-- One entry of the reply queue: the frame and its remaining lifetime in ms (R35). -/
structure ReplyEntry where
  frame : Frame
  remaining : Nat
deriving DecidableEq, Repr

/-- The Insertion Queue. -/
structure Iq where
  /-- The reply queue, head first (R35). -/
  replies : List ReplyEntry
  /-- The number of reserved places (R35). -/
  reserved : Nat
  /-- The reply lifetime setting in ms (R35). -/
  lifetime : Byte
  /-- The hold counter (R35, R39). -/
  hold : Byte
deriving DecidableEq, Repr

/-! ### The SE (chapters 3 to 5) -/

/-- The kind of an axis (R44). -/
inductive AxisKind where
  | linear
  | rotary
deriving DecidableEq, Repr

/-- An axis definition (R44). -/
structure AxisDef where
  source : Byte
  kind : AxisKind
  /-- Counts in one turn; 0 for LINEAR (R45). -/
  modulus : Nat
  /-- The stale limit S. -/
  stale : Byte
  maxStep : Nat
deriving DecidableEq, Repr

/-- Track polarity (R69). -/
inductive Polarity where
  | normal
  | inverted
deriving DecidableEq, Repr

/-- Direction qualifier (R69). -/
inductive Qualifier where
  | any
  | forward
  | reverse
deriving DecidableEq, Repr

/-- Fail action (R69). -/
inductive FailAction where
  | forceOff
  | forceOn
  | hold
deriving DecidableEq, Repr

/-- A track definition (R69). -/
structure TrackDef where
  enabled : Bool
  axis : Fin 16
  slot : Byte
  bit : Fin 32
  polarity : Polarity
  qualifier : Qualifier
  lead : Fin 16
  failAction : FailAction
  stretch : Byte
deriving DecidableEq, Repr

/-- A window: two 32-bit patterns (R71). -/
structure Window where
  on : Word
  off : Word
deriving DecidableEq, Repr

/-- A table bank (R96). -/
structure Bank where
  axes : Vector (Option AxisDef) 16
  tracks : Vector (Option TrackDef) 32
  /-- The window lists, one per track index (R71). -/
  lists : Vector (List Window) 32
  /-- The free count of the window pool (R72). -/
  free : Nat
  /-- The status slot definition (R91). -/
  statusSlot : Option Byte
deriving DecidableEq, Repr

/-- The two banks by name (R96). -/
inductive BankName where
  | a
  | b
deriving DecidableEq, Repr

/-- The mode of a commit (R106). -/
inductive CommitMode where
  | immediate
  | atCycle
deriving DecidableEq, Repr

/-- How a command arrived (R106, R124). -/
inductive Origin where
  | unicast
  | broadcast
deriving DecidableEq, Repr

/-- What a commit holds while it is VALIDATING or PENDING (R106). -/
structure CommitOrder where
  mode : CommitMode
  target : Half
  origin : Origin
deriving DecidableEq, Repr

/-- The commit record (R106). While NONE the mode, target and origin are cleared. -/
inductive Commit where
  | none
  | validating (order : CommitOrder)
  | pending (order : CommitOrder)
deriving DecidableEq, Repr

/-- The staged-operation state (R99). -/
inductive StagedOp where
  | idle
  | copying
  | clearing
deriving DecidableEq, Repr

/-- The state of an axis (R46). -/
inductive AxisState where
  | unbound
  | waiting
  | acquiring
  | tracking
  | coasting
  | lost
deriving DecidableEq, Repr

/-- The direction of an axis (R46). -/
inductive Direction where
  | unknown
  | forward
  | reverse
deriving DecidableEq, Repr

/-- The dynamic record of an axis (R46). -/
structure AxisRecord where
  state : AxisState
  position : Int
  velocity : Int
  direction : Direction
  missed : Byte
  /-- The last good cycle, none while unknown. -/
  lastGood : Option Half
deriving DecidableEq, Repr

/-- The dynamic record of a track (R80). -/
structure TrackRecord where
  /-- The last output: true is ON. -/
  output : Bool
  stretchCounter : Byte
deriving DecidableEq, Repr

/-- The Sample Engine. -/
structure Se where
  bankA : Bank
  bankB : Bank
  /-- The bank selector: the name of the ACTIVE bank (R96). -/
  selector : BankName
  /-- The bank generation (R96). -/
  generation : Half
  /-- The commit record (R106). -/
  commit : Commit
  /-- The staged-operation state (R99). -/
  stagedOp : StagedOp
  axisRecords : Vector AxisRecord 16
  trackRecords : Vector TrackRecord 32
deriving DecidableEq, Repr

/-! ### The CP (chapter 6) -/

/-- An entry of the command queue (R124). An absent field of a malformed frame is none. -/
structure CommandEntry where
  destination : Byte
  source : Byte
  tag : Option Half
  code : Option Byte
  argCount : Option Byte
  args : List Word
  malformed : Bool
  /-- A UNICAST entry holds one reserved place in the IQ (R125). -/
  origin : Origin
deriving DecidableEq, Repr

/-- An entry of the retry table (R131): IN_PROGRESS while it caches no reply, DONE once it does. -/
structure RetryEntry where
  source : Byte
  tag : Half
  cached : Option Frame
deriving DecidableEq, Repr

/-- The level of RESET (R171). -/
inductive ResetLevel where
  | tables
  | all
deriving DecidableEq, Repr

/-- What the command in flight waits for: the head of the command queue, but for `releasing` (R134, R173). -/
inductive Flight where
  /-- No command is in flight: the head, if any, has not begun. -/
  | none
  /-- COMMIT: the SE validates (R108). -/
  | validating
  /-- STAGE_COPY: the SE copies (R99). -/
  | copying
  /-- STAGE_CLEAR: the SE clears (R100). -/
  | clearing
  /-- BYPASS: the SE is asked to drop a pending commit (R177). -/
  | dropping
  /-- BYPASS: the SE has told what it dropped, and the reply is due (R177). -/
  | dropped (cancelled : Option CommitOrder)
  /-- RELEASE_ADDRESS: the reply is built and the command has left the queue; the address is still to be released
  (R180, R136; log entry 8). -/
  | releasing
  /-- RESUME: the request due next (R179). -/
  | resuming (next : ResumeStep)
  /-- RESET: its level and the request due next (R185, R186). -/
  | resetting (level : ResetLevel) (next : ResetStep)
deriving DecidableEq, Repr

/-- The Command Processor. -/
structure Cp where
  /-- The command queue, head first (R124). -/
  queue : List CommandEntry
  /-- The retry table, least recent first (R131). -/
  retry : List RetryEntry
  flight : Flight
deriving DecidableEq, Repr

/-! ### The MU (chapter 9) -/

/-- The sixteen event counters, in the order of R164. -/
inductive Counter where
  | framesForwarded
  | framesDamaged
  | framesForeign
  | samplesEvaluated
  | forwardDrops
  | outDiscards
  | rxAborts
  | commandsAccepted
  | commandsDiscarded
  | duplicatesAnswered
  | duplicatesDropped
  | repliesSent
  | repliesExpired
  | orphansRemoved
  | actionSlotsMissing
  | broadcastsIgnored
deriving DecidableEq, Repr

/-- The fault codes (Table 1-9). -/
inductive FaultCode where
  | sampleRange
  | slotType
  | implausibleStep
  | axisLost
  | actionSlotMissing
  | forwardDrop
  | commandDiscarded
  | replyExpired
  | broadcastCommitFailed
  | commitTooLate
  | linkDown
deriving DecidableEq, Repr

/-- A fault report as the reporting block makes it (R189). -/
structure Report where
  code : FaultCode
  subject : Byte
  detail : Half
deriving DecidableEq, Repr

/-- A held fault record (R188). -/
structure FaultRecord where
  report : Report
  cycle : Half
  further : Byte
deriving DecidableEq, Repr

/-- One bit per attention latch, in the order of R188. -/
structure Latches where
  fault : Bool
  axisLost : Bool
  commitDone : Bool
  linkChange : Bool
deriving DecidableEq, Repr

/-- The Monitor Unit. -/
structure Mu where
  /-- The fault record, none while empty (R188). -/
  fault : Option FaultRecord
  counters : Vector Half 16
  latches : Latches
  /-- The mask enables (R188). -/
  mask : Latches
deriving DecidableEq, Repr

/-! ### Between the blocks and the MU (R190, R193) -/

/-- The latch reports (R195); latch FAULT is set by every fault report. -/
inductive LatchCause where
  | axisLost
  | commitDone
  | linkChange
deriving DecidableEq, Repr

/-- One thing a block tells the MU: an increment, a fault report, a latch report. Each reaches the MU separately
(R193, R195). -/
inductive Notice where
  | count (c : Counter)
  | fault (r : Report)
  | latch (c : LatchCause)
deriving DecidableEq, Repr

/-- How far the MU has come with the notices of one event (R193). -/
inductive Stage where
  /-- It has taken none of them. -/
  | whole
  /-- It has taken some of them. -/
  | split
  /-- A read has seen some without the others: the next read sees all. -/
  | overdue
deriving DecidableEq, Repr

/-- The notices of one event that are still on their way to the MU (R190, R193). -/
structure Event where
  notices : List Notice
  stage : Stage
deriving DecidableEq, Repr

/-! ### The whole part -/

/-- A symbol on the line at IN (R22). -/
inductive LineSymbol where
  | startDelimiter
  | data (b : Byte)
  /-- A line code that is neither a data byte nor a delimiter. -/
  | broken
  | endDelimiter
deriving DecidableEq, Repr

/-- The state of the part. -/
structure State where
  rpu : Rpu
  iq : Iq
  se : Se
  cp : Cp
  mu : Mu
  /-- The events whose notices are on their way to the MU (R190, R193). -/
  onWay : List Event
  /-- RESET_N is held low (R182). -/
  resetHeld : Bool
  /-- The model's own field: the commands that are waiting, first in first out (log entry 2). -/
  pending : List Instr
  /-- The model's own field: the symbols that have yet to arrive at IN (log entry 3). -/
  line : List LineSymbol
  /-- The model's own field: when, and in which order, the MU takes what is on its way (log entry 20). -/
  lag : List Nat
  /-- The model's own field: whether the next row of two requests, RELEASE_ADDRESS or COMMIT_DROP, ends behind the first
  (log entry 7). -/
  pauses : List Bool
  /-- The model's own field: the number of free choices drawn so far (log entry 4). -/
  choices : Nat
deriving DecidableEq, Repr

/-- The reasons a step could stop with a fault. The manual gives the part no behaviour that stops it, so there is
none; no meaning raises one. Safe: no run ends here. -/
inductive Fault where
deriving DecidableEq, Repr

/-- The reasons a step could be refused. -/
inductive Refusal where
  /-- Raised by a row of Dispatch.lean that has no meaning yet; every row has one, so nothing raises it.
  Safe: it stops where the part goes on. -/
  | notModelled (mnemonic : String)
deriving DecidableEq, Repr

/-! ### Values after reset -/

/-- The RPU after the reset pin (R42). -/
def Rpu.reset : Rpu where
  linkIn := .down
  linkOut := .down
  startIn := true
  startOut := true
  receiving := none
  forward := []
  handed := []
  arbiter := .idle
  address := 0#8
  mode := .unaddressed
  lastCycle := none

/-- The IQ after the reset pin (R42). -/
def Iq.reset : Iq where
  replies := []
  reserved := 0
  lifetime := BitVec.ofNat 8 Config.defaultLifetime
  hold := 0#8

/-- An empty bank (R96). -/
def Bank.empty : Bank where
  axes := Vector.replicate 16 none
  tracks := Vector.replicate 32 none
  lists := Vector.replicate 32 []
  free := Config.poolEntries
  statusSlot := none

/-- A cleared axis record in a state (R46). -/
def AxisRecord.cleared (state : AxisState) : AxisRecord where
  state := state
  position := 0
  velocity := 0
  direction := .unknown
  missed := 0#8
  lastGood := none

/-- A cleared track record (R80). -/
def TrackRecord.cleared : TrackRecord where
  output := false
  stretchCounter := 0#8

/-- The SE after the reset pin, after RESET ALL and after RESET TABLES (R123, R68, R95). -/
def Se.reset : Se where
  bankA := .empty
  bankB := .empty
  selector := .a
  generation := 0#16
  commit := .none
  stagedOp := .idle
  axisRecords := Vector.replicate 16 (.cleared .unbound)
  trackRecords := Vector.replicate 32 .cleared

/-- The CP after the reset pin (R141). -/
def Cp.reset : Cp where
  queue := []
  retry := []
  flight := .none

/-- All four bits alike. -/
def Latches.all (b : Bool) : Latches where
  fault := b
  axisLost := b
  commitDone := b
  linkChange := b

/-- The MU after the reset pin and after RESET ALL (R188). -/
def Mu.reset : Mu where
  fault := none
  counters := Vector.replicate 16 0#16
  latches := .all false
  mask := .all true

/-- The part right after reset: RESET_N has returned high (R183) and nothing has happened since. -/
def State.reset : State where
  rpu := .reset
  iq := .reset
  se := .reset
  cp := .reset
  mu := .reset
  onWay := []
  resetHeld := false
  pending := []
  line := []
  lag := []
  pauses := []
  choices := 0

end Sys2Proof.Machine
end

