-- ==== Sys2Proof/Machine/Flags.lean ====
section
/-!
DEFINITION. Machine/Flags.lean: the MU's state (fault record, counters, latches) and the status word (chapter 9).
-/
namespace Sys2Proof.Machine

/-! ### Codes (Tables 1-6 to 1-10, R13) -/

/-- Table 1-9. -/
def FaultCode.code (c : FaultCode) : Nat :=
  match c with
  | .sampleRange => 1
  | .slotType => 2
  | .implausibleStep => 3
  | .axisLost => 4
  | .actionSlotMissing => 5
  | .forwardDrop => 6
  | .commandDiscarded => 7
  | .replyExpired => 8
  | .broadcastCommitFailed => 9
  | .commitTooLate => 10
  | .linkDown => 11

/-- The place of a counter in the result list of READ_COUNTERS (R164). -/
def Counter.index (c : Counter) : Fin 16 :=
  match c with
  | .framesForwarded => 0
  | .framesDamaged => 1
  | .framesForeign => 2
  | .samplesEvaluated => 3
  | .forwardDrops => 4
  | .outDiscards => 5
  | .rxAborts => 6
  | .commandsAccepted => 7
  | .commandsDiscarded => 8
  | .duplicatesAnswered => 9
  | .duplicatesDropped => 10
  | .repliesSent => 11
  | .repliesExpired => 12
  | .orphansRemoved => 13
  | .actionSlotsMissing => 14
  | .broadcastsIgnored => 15

/-- Station mode codes (R13). -/
def Mode.code (m : Mode) : Nat :=
  match m with
  | .unaddressed => 0
  | .running => 1
  | .bypass => 2

/-- Bank codes by name (R13). -/
def BankName.code (name : BankName) : Nat :=
  match name with
  | .a => 0
  | .b => 1

/-- Commit state codes (R13). -/
def Commit.code (c : Commit) : Nat :=
  match c with
  | .none => 0
  | .validating _ => 1
  | .pending _ => 2

/-- A flag as a number (R13). -/
def flag (b : Bool) : Nat := if b then 1 else 0

/-! ### Counters, reports, latches -/

/-- One more, held at 65535 (R192). -/
def countUp (c : Half) : Half := if c = 65535#16 then c else c + 1#16

/-- One more, held at 255 (R189, R64). -/
def byteUp (b : Byte) : Byte := if b = 255#8 then b else b + 1#8

/-- The MU takes an increment (R192). -/
def Mu.count (m : Mu) (c : Counter) : Mu :=
  { m with counters := m.counters.set c.index.val (countUp m.counters[c.index]) }

/-- The MU takes a fault report while the last cycle seen is `cycle` (R189): the first report is kept, a later one
raises the further count, and latch FAULT is set. -/
def Mu.report (m : Mu) (cycle : Option Half) (r : Report) : Mu :=
  { m with
    fault := some (match m.fault with
      | none => { report := r, cycle := cycle.getD 0#16, further := 0#8 }
      | some held => { held with further := byteUp held.further })
    latches := { m.latches with fault := true } }

/-- The MU takes a latch report (R195). -/
def Mu.latch (m : Mu) (c : LatchCause) : Mu :=
  { m with
    latches := match c with
      | .axisLost => { m.latches with axisLost := true }
      | .commitDone => { m.latches with commitDone := true }
      | .linkChange => { m.latches with linkChange := true } }

/-- The MU takes one notice while the last cycle seen is `cycle` (R189, R192, R195). -/
def Mu.take (m : Mu) (cycle : Option Half) (n : Notice) : Mu :=
  match n with
  | .count c => m.count c
  | .fault r => m.report cycle r
  | .latch c => m.latch c

/-- The fault report of a notice. -/
def Notice.report? (n : Notice) : Option Report :=
  match n with
  | .fault r => some r
  | .count _ => none
  | .latch _ => none

/-- A notice is an increment. -/
def Notice.isCount (n : Notice) : Bool :=
  match n with
  | .count _ => true
  | .fault _ => false
  | .latch _ => false

/-- The MU takes a notice that is no fault report. -/
def Mu.mark (m : Mu) (n : Notice) : Mu :=
  match n with
  | .count c => m.count c
  | .latch c => m.latch c
  | .fault _ => m

/-- The MU takes a fault report; the cycle is read from the RPU at the taking (R190). -/
def State.report (s : State) (r : Report) : State := { s with mu := s.mu.report s.rpu.lastCycle r }

/-- The list with its element at a position brought to the front. -/
def bringToFront {α : Type} (l : List α) (i : Nat) : List α :=
  match l[i]? with
  | some x => x :: l.eraseIdx i
  | none => l

/-- The MU takes reports that reach it together, in an order the manual leaves open (R190). Only which report comes
first can be told, so the free choice is that one. A single report leaves nothing to choose. Log entry 4. -/
def State.reportAll (s : State) (reports : List Report) : State :=
  match reports with
  | [] => s
  | [r] => s.report r
  | _ :: _ :: _ =>
    { (bringToFront reports (Config.freeChoice s.choices % reports.length)).foldl State.report s with
      choices := s.choices + 1 }

/-- The MU takes notices that reach it together. Increments and latch reports leave nothing to tell of their order. -/
def State.takeAll (s : State) (l : List Notice) : State :=
  State.reportAll { s with mu := l.foldl Mu.mark s.mu } (l.filterMap Notice.report?)

/-! ### Notices on their way (R190, R193) -/

/-- The notices of one event on their way, the MU having taken none. -/
def Event.whole (l : List Notice) : Event where
  notices := l
  stage := .whole

/-- The event once the MU has taken its notice at a position; nothing when that was the last. -/
def Event.without (e : Event) (j : Nat) : List Event :=
  match e.notices.eraseIdx j with
  | [] => []
  | x :: l => [{ notices := x :: l, stage := if e.stage = .overdue then .overdue else .split }]

/-- The notice at a position of all that are on their way, and the events without it. -/
def pickNotice (l : List Event) (n : Nat) : Option (Notice × List Event) :=
  match l with
  | [] => none
  | e :: rest =>
    match e.notices[n]? with
    | some x => some (x, e.without n ++ rest)
    | none => (pickNotice rest (n - e.notices.length)).map (fun p => (p.1, e :: p.2))

/-- The MU takes what is on its way, as far as `lag` lets it: an entry that is a position takes the notice there, one
that is none ends the taking, and with no entry left everything is taken together (R190, R193; log entry 20). -/
def State.deliverBy (lag : List Nat) (s : State) : State :=
  if s.onWay = [] then { s with lag := lag }
  else
    match lag with
    | [] => State.takeAll { s with onWay := [], lag := [] } (s.onWay.flatMap Event.notices)
    | n :: rest =>
      match pickNotice s.onWay n with
      | some (x, l) => State.deliverBy rest { s with mu := s.mu.take s.rpu.lastCycle x, onWay := l }
      | none => { s with lag := rest }

/-- The MU takes what is on its way, as far as `lag` lets it; none while RESET_N is held low (R182). -/
def State.deliver (s : State) : State := if s.resetHeld then s else s.deliverBy s.lag

/-- Events set out for the MU, behind those on their way. -/
def State.sendEvents (s : State) (l : List Event) : State := State.deliver { s with onWay := s.onWay ++ l }

/-- The notices of events, event by event, set out for the MU (R193). -/
def State.send (s : State) (l : List (List Notice)) : State := s.sendEvents (l.map Event.whole)

/-- An event that a read has seen in part (R193). -/
def Event.isOverdue (e : Event) : Bool := decide (e.stage = .overdue)

/-- A read has seen what the MU has taken of an event (R193). -/
def Event.seen (e : Event) : Event :=
  match e.stage with
  | .split => { e with stage := .overdue }
  | .whole => e
  | .overdue => e

/-- A read of the MU's counters or its record takes place: what an earlier read saw in part has been taken whole by
now, and what this one sees in part is to be taken before the next (R193). -/
def State.settle (s : State) : State :=
  State.takeAll { s with onWay := (s.onWay.filter (fun e => !e.isOverdue)).map Event.seen }
    ((s.onWay.filter Event.isOverdue).flatMap Event.notices)

/-- The part at a read of the MU's counters or its record: the MU has taken what it takes before (R193). -/
def State.atRead (s : State) : State := s.deliver.settle

/-- What is on its way is the increment of an accepted command, which makes no other notice (R126, R130). -/
def Event.isAcceptance (e : Event) : Bool := decide (e.notices = [.count .commandsAccepted])

/-- The MU takes the increment of the command accepted first of those whose increment is on its way. -/
def State.takeAcceptance (s : State) : State :=
  { s with mu := s.mu.count .commandsAccepted, onWay := s.onWay.eraseP Event.isAcceptance }

/-- The MU has taken the increment of every accepted command but at most the `behind` last ones (R164, R171). -/
def State.acceptedBefore (behind : Nat) (s : State) : State :=
  Nat.repeat State.takeAcceptance (s.onWay.countP Event.isAcceptance - behind) s

/-! ### The status word -/

/-- The attention summary (R198). -/
def Mu.summary (m : Mu) : Bool :=
  (m.latches.fault && m.mask.fault) || (m.latches.axisLost && m.mask.axisLost)
    || (m.latches.commitDone && m.mask.commitDone) || (m.latches.linkChange && m.mask.linkChange)

/-- The number of axis records in LOST (R63). -/
def Se.lostAxes (e : Se) : Nat := e.axisRecords.toList.countP (fun r => decide (r.state = .lost))

/-- The status word composed at this moment (R199, Table 1-6). -/
def State.statusWord (s : State) : Word :=
  BitVec.ofNat 32
    (s.rpu.mode.code * 1073741824 + s.se.selector.code * 536870912 + s.se.commit.code * 134217728
      + flag s.mu.summary * 67108864 + flag s.mu.fault.isSome * 33554432 + flag s.mu.latches.fault * 16777216
      + flag s.mu.latches.axisLost * 8388608 + flag s.mu.latches.commitDone * 4194304
      + flag s.mu.latches.linkChange * 2097152 + s.se.lostAxes * 65536 + s.se.generation.toNat % 256 * 256
      + s.rpu.address.toNat)

end Sys2Proof.Machine
end

