-- ==== Sys2Proof/Machine/Frames.lean ====
section
/-!
DEFINITION. Machine/Frames.lean: frames as data (chapter 1): byte order, CRC, classes, slots, and what may be rewritten.
-/
namespace Sys2Proof.Machine

/-! ### Byte order (R1, R13, R17): most significant byte first -/

/-- Byte `i` of a frame; 0 beyond its end, where no rule reads. -/
def byteAt (f : Frame) (i : Nat) : Byte := f.getD i 0

/-- The two-byte field at offset `i`. -/
def halfAt (f : Frame) (i : Nat) : Half :=
  BitVec.ofNat 16 ((byteAt f i).toNat * 256 + (byteAt f (i + 1)).toNat)

/-- The four-byte field at offset `i`. -/
def wordAt (f : Frame) (i : Nat) : Word :=
  BitVec.ofNat 32
    ((byteAt f i).toNat * 16777216 + (byteAt f (i + 1)).toNat * 65536
      + (byteAt f (i + 2)).toNat * 256 + (byteAt f (i + 3)).toNat)

/-- A two-byte field as its bytes. -/
def halfBytes (h : Half) : List Byte := [BitVec.ofNat 8 (h.toNat / 256), BitVec.ofNat 8 h.toNat]

/-- A four-byte field as its bytes. -/
def wordBytes (w : Word) : List Byte :=
  [BitVec.ofNat 8 (w.toNat / 16777216), BitVec.ofNat 8 (w.toNat / 65536),
    BitVec.ofNat 8 (w.toNat / 256), BitVec.ofNat 8 w.toNat]

/-- The frame with the four bytes at offset `i` replaced by a word; its length is kept (R15). -/
def putWord (f : Frame) (i : Nat) (w : Word) : Frame :=
  (((f.set i (BitVec.ofNat 8 (w.toNat / 16777216))).set (i + 1) (BitVec.ofNat 8 (w.toNat / 65536))).set (i + 2)
    (BitVec.ofNat 8 (w.toNat / 256))).set (i + 3) (BitVec.ofNat 8 w.toNat)

/-! ### The CRC (R2) -/

/-- One step of the CRC register (R2). -/
def crcBit (r : Word) : Word := if r.getLsbD 0 then (r >>> 1) ^^^ 0xEDB88320#32 else r >>> 1

/-- One byte into the CRC register: exclusive-or into its low eight bits, then eight steps (R2). -/
def crcByte (r : Word) (b : Byte) : Word := Nat.repeat crcBit 8 (r ^^^ b.setWidth 32)

/-- The CRC over a sequence of bytes (R2). -/
def crc (bytes : List Byte) : Word := ~~~(bytes.foldl crcByte 0xFFFFFFFF#32)

/-- The bytes a frame's CRC is computed over: 0 to L-5 (R2). -/
def covered (f : Frame) : List Byte := f.take (f.length - 4)

/-- The number held in a frame's last four bytes (R1). -/
def heldCrc (f : Frame) : Word := wordAt f (f.length - 4)

/-- A frame built from its kind byte and body: the CRC is appended (R16). -/
def sealed (bytes : List Byte) : Frame := bytes ++ wordBytes (crc bytes)

/-- The frame with its last four bytes replaced by the CRC over the rest (R16). -/
def resealed (f : Frame) : Frame := putWord f (f.length - 4) (crc (covered f))

/-! ### Classes (R3 to R5) -/

/-- The classes of a frame that has completed reception (section 1.2). -/
inductive FrameClass where
  /-- Fewer than 5 bytes. -/
  | noKind
  /-- 5 bytes or more, and the CRC does not match. -/
  | damaged
  /-- Kind SAMPLE with a good CRC; valid or malformed. -/
  | sample (valid : Bool)
  /-- Kind COMMAND with a good CRC; valid or malformed. -/
  | command (valid : Bool)
  /-- Kind REPLY with a good CRC; valid or malformed. -/
  | reply (valid : Bool)
  /-- Kind ENUMERATE with a good CRC; valid or malformed. -/
  | enumerate (valid : Bool)
  /-- A good CRC and a kind byte that is none of the four. -/
  | foreign
deriving DecidableEq, Repr

/-- The slot count of a SAMPLE frame (Table 1-2). -/
def slotCount (f : Frame) : Nat := (byteAt f 5).toNat

/-- R5 for SAMPLE: L = 10 + 6N with N up to 200. A frame too short to hold N cannot have this length. -/
def sampleLengthOk (f : Frame) : Bool := slotCount f ≤ 200 && f.length == 10 + 6 * slotCount f

/-- R5 for COMMAND: L = 11 + 4K with K up to 64. -/
def commandLengthOk (f : Frame) : Bool :=
  (byteAt f 6).toNat ≤ 64 && f.length == 11 + 4 * (byteAt f 6).toNat

/-- R5 for REPLY: L = 12 + 4R with R up to 32. -/
def replyLengthOk (f : Frame) : Bool :=
  (byteAt f 7).toNat ≤ 32 && f.length == 12 + 4 * (byteAt f 7).toNat

/-- R5 for ENUMERATE: L = 7. -/
def enumerateLengthOk (f : Frame) : Bool := f.length == 7

/-- The class of a frame, by the order of R23, steps 1 to 3. -/
def classify (f : Frame) : FrameClass :=
  if f.length < 5 then .noKind
  else if crc (covered f) ≠ heldCrc f then .damaged
  else if byteAt f 0 = 1#8 then .sample (sampleLengthOk f)
  else if byteAt f 0 = 2#8 then .command (commandLengthOk f)
  else if byteAt f 0 = 3#8 then .reply (replyLengthOk f)
  else if byteAt f 0 = 4#8 then .enumerate (enumerateLengthOk f)
  else .foreign

/-- The row of the table that a frame's class is received by (R23; 95 for the malformed ones). -/
def receptionRow (f : Frame) : Instr :=
  match classify f with
  | .noKind => .receiveForeign f
  | .damaged => .receiveDamaged f
  | .sample _ => .receiveSample f
  | .command _ => .receiveCommand f
  | .reply _ => .receiveReply f
  | .enumerate true => .receiveEnumerate f
  | .enumerate false => .receiveForeign f
  | .foreign => .receiveForeign f

/-! ### SAMPLE frames (R7 to R10) -/

/-- The cycle number of a SAMPLE frame (Table 1-2). -/
def cycleOf (f : Frame) : Half := halfAt f 2

/-- The quiet count Q of a SAMPLE frame (Table 1-2). -/
def quietOf (f : Frame) : Byte := byteAt f 4

/-- Cycle `c` is at or after target `t` (R7). -/
def atOrAfter (c t : Half) : Bool := (c - t).toNat < 32768

/-- Target `t` is strictly ahead of cycle `l` (R7). -/
def strictlyAhead (t l : Half) : Bool := 1 ≤ (t - l).toNat && (t - l).toNat ≤ 32767

/-- The roles a slot type byte gives (R8). -/
inductive SlotRole where
  | position
  | action
  | status
  | opaqueRole
deriving DecidableEq, Repr

/-- The role of a slot type byte (Table 1-2). -/
def SlotRole.ofByte (b : Byte) : SlotRole :=
  if b = 1#8 then .position else if b = 2#8 then .action else if b = 3#8 then .status else .opaqueRole

/-- The offset of the first slot of a SAMPLE frame that carries an id, in frame order; none when absent (R9). -/
def findSlot (f : Frame) (id : Byte) : Option Nat :=
  ((List.range (slotCount f)).find? (fun i => byteAt f (6 + 6 * i) == id)).map (fun i => 6 + 6 * i)

/-- The role of the slot at an offset. -/
def slotRole (f : Frame) (offset : Nat) : SlotRole := SlotRole.ofByte (byteAt f (offset + 1))

/-- The value of the slot at an offset (R10). -/
def slotValue (f : Frame) (offset : Nat) : Word := wordAt f (offset + 2)

/-- The frame with the value of the slot at an offset replaced; its id and type stay (R88). -/
def putSlotValue (f : Frame) (offset : Nat) (w : Word) : Frame := putWord f (offset + 2) w

/-! ### ENUMERATE frames (R14) -/

/-- The next address of an ENUMERATE frame (Table 1-5). -/
def nextAddressOf (f : Frame) : Byte := byteAt f 1

/-- The hop count raised by 1, held at 255 (R14, R174). -/
def raisedHop (f : Frame) : Byte := if byteAt f 2 = 255#8 then 255#8 else byteAt f 2 + 1#8

/-- A next address is assignable when it lies in 1 to 250 (R14). -/
def assignable (a : Byte) : Bool := 1 ≤ a.toNat && a.toNat ≤ 250

/-- The ENUMERATE frame as it leaves: its next address, its raised hop count, a fresh CRC (R174, R16). -/
def enumerateLeaving (f : Frame) (next : Byte) : Frame := resealed ((f.set 1 next).set 2 (raisedHop f))

end Sys2Proof.Machine
end

