-- ==== Sys2Proof/Machine/Banks.lean ====
section
/-!
DEFINITION. Machine/Banks.lean: the two banks by role, their edits (R45, R70, R74 to R76, R91), validation (R102 to
R105) and the commit checks on cycles (R107, R110, R112).
-/
namespace Sys2Proof.Machine

/-- A table built index by index. -/
def tabulate {α : Type} (n : Nat) (f : Fin n → α) : Vector α n := ⟨⟨List.ofFn f⟩, by simp⟩

/-! ### Roles (R96, R97) -/

/-- The other bank name. -/
def BankName.other (name : BankName) : BankName :=
  match name with
  | .a => .b
  | .b => .a

/-- A bank by name. -/
def Se.bank (e : Se) (name : BankName) : Bank :=
  match name with
  | .a => e.bankA
  | .b => e.bankB

/-- The ACTIVE bank. -/
def Se.active (e : Se) : Bank := e.bank e.selector

/-- The STAGED bank. -/
def Se.staged (e : Se) : Bank := e.bank e.selector.other

/-- The SE with its STAGED bank replaced; the ACTIVE bank stays (R98). -/
def Se.withStaged (e : Se) (b : Bank) : Se :=
  match e.selector with
  | .a => { e with bankB := b }
  | .b => { e with bankA := b }

/-- The edit lock holds while the commit state is VALIDATING or PENDING (R98). -/
def Commit.locks (c : Commit) : Bool :=
  match c with
  | .none => false
  | .validating _ => true
  | .pending _ => true

/-! ### Edits of one bank -/

/-- The definition at one axis index set or made absent (R45). -/
def Bank.setAxis (b : Bank) (i : Fin 16) (d : Option AxisDef) : Bank := { b with axes := b.axes.set i.val d }

/-- The definition at one track index written; the window list stays (R70). -/
def Bank.setTrack (b : Bank) (i : Fin 32) (d : TrackDef) : Bank := { b with tracks := b.tracks.set i.val (some d) }

/-- The definition at one track index made absent and its list emptied; its entries return to the pool (R76). -/
def Bank.clearTrack (b : Bank) (i : Fin 32) : Bank :=
  { b with
    tracks := b.tracks.set i.val none
    lists := b.lists.set i.val []
    free := b.free + b.lists[i].length }

/-- A list after a load of windows at a start position not beyond its end (R75): what stands below start is kept,
and so is what stands beyond the load unless it is truncated. -/
def loadedList (old : List Window) (start : Nat) (truncate : Bool) (load : List Window) : List Window :=
  old.take start ++ load ++ (if truncate then [] else old.drop (start + load.length))

/-- A bank with one window list replaced and the free count following the lengths (R75). -/
def Bank.setList (b : Bank) (i : Fin 32) (l : List Window) : Bank :=
  { b with
    lists := b.lists.set i.val l
    free := b.free + b.lists[i].length - l.length }

/-- The sum of the lengths of a bank's window lists (R72). -/
def Bank.used (b : Bank) : Nat := (b.lists.toList.map List.length).sum

/-! ### Validation (R102 to R105) -/

/-- Validation error codes (Table 1-10). -/
inductive ErrorCode where
  | axisSlotClash
  | slotRoleClash
  | trackAxisUndefined
  | trackBitClash
  | windowEmpty
  | windowRange
  | windowWrapMisplaced
  | windowOrder
deriving DecidableEq, Repr

/-- Table 1-10. -/
def ErrorCode.code (c : ErrorCode) : Nat :=
  match c with
  | .axisSlotClash => 1
  | .slotRoleClash => 2
  | .trackAxisUndefined => 3
  | .trackBitClash => 4
  | .windowEmpty => 5
  | .windowRange => 6
  | .windowWrapMisplaced => 7
  | .windowOrder => 8

/-- The item a failed validation reports (R102). -/
structure Item where
  code : ErrorCode
  subject : Nat
  detail : Nat
deriving DecidableEq, Repr

/-- A window position read by the kind of an axis: signed for LINEAR, unsigned for ROTARY (R78). -/
def readPosition (kind : AxisKind) (w : Word) : Int :=
  match kind with
  | .linear => w.toInt
  | .rotary => (w.toNat : Int)

/-- The lowest index of the present axes with a source slot id (R103, R104). -/
def Bank.axisWithSource (b : Bank) (id : Byte) : Option (Fin 16) :=
  (List.finRange 16).find? (fun i => match b.axes[i] with
    | some d => d.source == id
    | none => false)

/-- The definition of an enabled track (R69): none when it is absent or not enabled. -/
def Bank.enabledTrack (b : Bank) (t : Fin 32) : Option TrackDef :=
  match b.tracks[t] with
  | some d => if d.enabled then some d else none
  | none => none

/-- Step 1 of the scan at one axis index (R103). -/
def Bank.axisFault (b : Bank) (i : Fin 16) : Option Item :=
  match b.axes[i] with
  | none => none
  | some d =>
    match b.axisWithSource d.source with
    | none => none
    | some j => if j < i then some { code := .axisSlotClash, subject := i.val, detail := j.val } else none

/-- Step 2 of the scan: the status slot (R103). -/
def Bank.statusFault (b : Bank) : Option Item :=
  match b.statusSlot with
  | none => none
  | some id =>
    match b.axisWithSource id with
    | none => none
    | some j => some { code := .slotRoleClash, subject := id.toNat, detail := j.val }

/-- The lowest enabled track before an index that owns the same bit of the same slot id (R104). -/
def Bank.bitClash (b : Bank) (t : Fin 32) (d : TrackDef) : Option (Fin 32) :=
  (List.finRange 32).find? (fun u => decide (u < t) && (match b.enabledTrack u with
    | some o => o.slot == d.slot && o.bit == d.bit
    | none => false))

/-- The conditions of one window of a list, in their order (R105). -/
def windowFault (axis : AxisDef) (l : List Window) (i : Nat) : Option ErrorCode :=
  let w := l.getD i { on := 0#32, off := 0#32 }
  let a := readPosition axis.kind w.on
  let b := readPosition axis.kind w.off
  let a0 := readPosition axis.kind (l.getD 0 { on := 0#32, off := 0#32 }).on
  let before := l.getD (i - 1) { on := 0#32, off := 0#32 }
  if a = b then some .windowEmpty
  else if axis.kind = .rotary ∧ ((axis.modulus : Int) ≤ a ∨ (axis.modulus : Int) ≤ b) then some .windowRange
  else if b < a ∧ (axis.kind = .linear ∨ i + 1 ≠ l.length ∨ a0 < b) then some .windowWrapMisplaced
  else if 0 < i ∧ (a < readPosition axis.kind before.off ∨ a ≤ readPosition axis.kind before.on) then
    some .windowOrder
  else none

/-- The windows of a track's list in list order: the first condition found broken (R105). -/
def windowsFault (axis : AxisDef) (t : Fin 32) (l : List Window) : Option Item :=
  (List.range l.length).findSome? (fun i => (windowFault axis l i).map (fun c =>
    { code := c, subject := t.val, detail := i }))

/-- Step 3 of the scan at one track index: its own conditions in order, then its windows (R104, R105). -/
def Bank.trackFault (b : Bank) (t : Fin 32) : Option Item :=
  match b.enabledTrack t with
  | none => none
  | some d =>
    match b.axes[d.axis] with
    | none => some { code := .trackAxisUndefined, subject := t.val, detail := d.axis.val }
    | some axis =>
      match b.axisWithSource d.slot with
      | some j => some { code := .slotRoleClash, subject := t.val, detail := j.val }
      | none =>
        if b.statusSlot = some d.slot then some { code := .slotRoleClash, subject := t.val, detail := 255 }
        else
          match b.bitClash t d with
          | some u => some { code := .trackBitClash, subject := t.val, detail := u.val }
          | none => windowsFault axis t b.lists[t]

/-- Validation of a bank: none is a pass (R102). -/
def Bank.validate (b : Bank) : Option Item :=
  match (List.finRange 16).findSome? b.axisFault with
  | some item => some item
  | none =>
    match b.statusFault with
    | some item => some item
    | none => (List.finRange 32).findSome? b.trackFault

/-! ### Targets -/

/-- An AT_CYCLE target that a known last cycle seen has reached or passed (R107 check 3, R110). A target 32768 cycles
away is taken so, by R110 and the first bullet of R111, though the last sentence of R111 would have it PENDING (DESIGN
CHOICE, log entry 21). -/
def CommitOrder.overtaken (o : CommitOrder) (last : Option Half) : Bool :=
  match o.mode, last with
  | .atCycle, some l => !strictlyAhead o.target l
  | _, _ => false

/-- The swap test at the start of the evaluation of a frame of a cycle (R112). -/
def Commit.swapDue (c : Commit) (cycle : Half) : Bool :=
  match c with
  | .pending o => decide (o.mode = .immediate) || atOrAfter cycle o.target
  | _ => false

/-! ### The swap (R113 to R116) -/

/-- Whether a swap keeps an axis record: same source slot id, kind and modulus (R114). -/
def AxisDef.continues (old new : AxisDef) : Bool :=
  decide (old.source = new.source ∧ old.kind = new.kind ∧ old.modulus = new.modulus)

/-- Whether a kept record enters LOST at the swap (R115). -/
def AxisRecord.lostUnder (r : AxisRecord) (new : AxisDef) : Bool :=
  decide ((r.state = .acquiring ∨ r.state = .coasting) ∧ new.stale.toNat ≤ r.missed.toNat)

/-- An axis record through a swap (R114, R115). -/
def swappedAxis (old new : Option AxisDef) (r : AxisRecord) : AxisRecord :=
  match old, new with
  | some o, some n =>
    if o.continues n then (if r.lostUnder n then { r with state := .lost } else r) else .cleared .waiting
  | none, some _ => .cleared .waiting
  | _, none => .cleared .unbound

/-- Whether an axis enters LOST at a swap (R115). -/
def lostAtSwap (old new : Option AxisDef) (r : AxisRecord) : Bool :=
  match old, new with
  | some o, some n => o.continues n && r.lostUnder n
  | _, _ => false

/-- Whether a swap keeps a track record (R116). -/
def trackContinues (old new : Option TrackDef) : Bool :=
  match old, new with
  | some o, some n =>
    decide (o.enabled = true ∧ n.enabled = true ∧ o.axis = n.axis ∧ o.slot = n.slot ∧ o.bit = n.bit)
  | _, _ => false

/-- The SE after a swap (R113). -/
def Se.swap (e : Se) : Se :=
  { e with
    selector := e.selector.other
    generation := e.generation + 1#16
    commit := .none
    axisRecords := tabulate 16 (fun i => swappedAxis e.active.axes[i] e.staged.axes[i] e.axisRecords[i])
    trackRecords := tabulate 32 (fun t =>
      if trackContinues e.active.tracks[t] e.staged.tracks[t] then e.trackRecords[t] else .cleared) }

/-- The report of an axis entering LOST (R63). -/
def axisLostReport (i : Fin 16) : Report := { code := .axisLost, subject := BitVec.ofNat 8 i.val, detail := 0#16 }

/-- What the SE tells the MU of an axis entering LOST: the fault report and the latch report (R63, R195). -/
def lostNotices (i : Fin 16) : List Notice := [.fault (axisLostReport i), .latch .axisLost]

/-- What a swap tells the MU: the swap itself, and each axis it takes into LOST (R113, R115). -/
def Se.swapNotices (e : Se) : List (List Notice) :=
  [.latch .commitDone]
    :: ((List.finRange 16).filter (fun i => lostAtSwap e.active.axes[i] e.staged.axes[i] e.axisRecords[i])).map
      lostNotices

end Sys2Proof.Machine
end

