-- ==== Sys2Proof/Machine/Operands.lean ====
section
/-!
DEFINITION. Machine/Operands.lean: command codes, argument counts and ranges, the general refusals, and how a COMMAND
frame becomes an entry of the command queue (R11, R13, R19, R124, R129, R135, R143, R148 to R171).
-/
namespace Sys2Proof.Machine

/-- The commands of Table 1-7. -/
inductive Command where
  | identify
  | readStatus
  | defineAxis
  | clearAxis
  | defineTrack
  | clearTrack
  | loadWindows
  | stageCopy
  | stageClear
  | defineStatusSlot
  | commit
  | cancelCommit
  | readAxis
  | readTrack
  | readWindows
  | readPool
  | readFault
  | clearFault
  | readCounters
  | setAttentionMask
  | ackAttention
  | setReplyLifetime
  | bypass
  | resume
  | releaseAddress
  | reset
deriving DecidableEq, Repr

/-- The command a command code names (Table 1-7); none for an unknown code (R19). -/
def Command.ofByte (b : Byte) : Option Command :=
  match b.toNat with
  | 0x01 => some .identify
  | 0x02 => some .readStatus
  | 0x10 => some .defineAxis
  | 0x11 => some .clearAxis
  | 0x12 => some .defineTrack
  | 0x13 => some .clearTrack
  | 0x14 => some .loadWindows
  | 0x15 => some .stageCopy
  | 0x16 => some .stageClear
  | 0x17 => some .defineStatusSlot
  | 0x20 => some .commit
  | 0x21 => some .cancelCommit
  | 0x30 => some .readAxis
  | 0x31 => some .readTrack
  | 0x32 => some .readWindows
  | 0x33 => some .readPool
  | 0x40 => some .readFault
  | 0x41 => some .clearFault
  | 0x42 => some .readCounters
  | 0x43 => some .setAttentionMask
  | 0x44 => some .ackAttention
  | 0x50 => some .setReplyLifetime
  | 0x51 => some .bypass
  | 0x52 => some .resume
  | 0x53 => some .releaseAddress
  | 0x54 => some .reset
  | _ => none

/-- The statuses of a reply (Table 1-8). -/
inductive Status where
  | ok
  | malformed
  | unknownCommand
  | badArgument
  | stageLocked
  | noSpace
  | validationFailed
  | tooLate
  | nothingPending
  | wrongMode
deriving DecidableEq, Repr

/-- Table 1-8. -/
def Status.code (x : Status) : Byte :=
  match x with
  | .ok => 0#8
  | .malformed => 1#8
  | .unknownCommand => 2#8
  | .badArgument => 3#8
  | .stageLocked => 4#8
  | .noSpace => 5#8
  | .validationFailed => 6#8
  | .tooLate => 7#8
  | .nothingPending => 8#8
  | .wrongMode => 9#8

/-- The argument counts that are right for a command (Table 7-1). -/
def Command.countOk (c : Command) (k : Nat) : Bool :=
  match c with
  | .identify | .readStatus | .stageCopy | .stageClear | .cancelCommit | .readPool | .readFault | .clearFault
  | .bypass | .resume | .releaseAddress => k == 0
  | .clearAxis | .clearTrack | .defineStatusSlot | .readAxis | .readCounters | .setReplyLifetime | .reset => k == 1
  | .commit | .readTrack => k == 2
  | .readWindows | .setAttentionMask | .ackAttention => k == 4
  | .defineAxis => k == 6
  | .defineTrack => k == 10
  | .loadWindows => decide (6 ≤ k ∧ k ≤ 36 ∧ k % 2 = 0)

/-- Whether argument word `j` of a command lies in the range of its quantity, each word whole (R13, R135). Ranges that
depend on another word read it from the list of all words (R148 word 3, R152 word 3). -/
def Command.argOk (c : Command) (args : List Word) (j : Nat) : Bool :=
  let w := (args.getD j 0#32).toNat
  match c with
  | .identify | .readStatus | .stageCopy | .stageClear | .cancelCommit | .readPool | .readFault | .clearFault
  | .bypass | .resume | .releaseAddress => true
  | .clearAxis | .readAxis => w ≤ 15
  | .clearTrack => w ≤ 31
  | .defineStatusSlot => w ≤ 256
  | .readCounters | .reset => w ≤ 1
  | .setReplyLifetime => decide (1 ≤ w ∧ w ≤ 255)
  | .setAttentionMask | .ackAttention => w ≤ 1
  | .commit => if j = 0 then w ≤ 1 else w ≤ 65535
  | .readTrack => if j = 0 then w ≤ 31 else w ≤ 1
  | .readWindows =>
    match j with
    | 0 => w ≤ 31
    | 1 => w ≤ 1
    | 2 => w ≤ 16
    | _ => decide (1 ≤ w ∧ w ≤ 16)
  | .defineAxis =>
    match j with
    | 0 => w ≤ 15
    | 1 => w ≤ 255
    | 2 => w ≤ 1
    | 3 => if args.getD 2 0#32 = 1#32 then decide (2 ≤ w ∧ w ≤ 2147483648) else true
    | 4 => decide (1 ≤ w ∧ w ≤ 255)
    | _ => decide (1 ≤ w ∧ w ≤ 1073741824)
  | .defineTrack =>
    match j with
    | 0 => w ≤ 31
    | 1 => w ≤ 1
    | 2 => w ≤ 15
    | 3 => w ≤ 255
    | 4 => w ≤ 31
    | 5 => w ≤ 1
    | 6 => w ≤ 2
    | 7 => w ≤ 15
    | 8 => w ≤ 2
    | _ => w ≤ 255
  | .loadWindows =>
    match j with
    | 0 => w ≤ 31
    | 1 => w ≤ 16
    | 2 => w ≤ 1
    | 3 => w == (args.length - 4) / 2
    | _ => true

/-- The index of the first argument word out of range (R135 order 4). -/
def Command.firstBad (c : Command) (args : List Word) : Option Nat :=
  (List.range args.length).find? (fun j => !c.argOk args j)

/-! ### Entries of the command queue -/

/-- The tag an entry answers with: 0 for an absent one (R129). -/
def CommandEntry.tagValue (e : CommandEntry) : Half := e.tag.getD 0#16

/-- The command code an entry answers with: 0 for an absent one (R129). -/
def CommandEntry.codeValue (e : CommandEntry) : Byte := e.code.getD 0#8

/-- The command an entry's code names (R19). -/
def CommandEntry.command (e : CommandEntry) : Option Command := Command.ofByte e.codeValue

/-- Argument word `j` of an entry. -/
def CommandEntry.arg (e : CommandEntry) (j : Nat) : Word := e.args.getD j 0#32

/-- Argument word `j` as a number. -/
def CommandEntry.num (e : CommandEntry) (j : Nat) : Nat := (e.arg j).toNat

/-- Argument word `j` as a flag (R13). -/
def CommandEntry.yes (e : CommandEntry) (j : Nat) : Bool := decide (e.num j = 1)

/-- The entry a COMMAND frame makes (R124, R129): its fields at the offsets of Table 1-3, each absent unless all its
bytes lie before the CRC (R5), and no argument words from a malformed frame. -/
def entryOf (f : Frame) (valid : Bool) (origin : Origin) : CommandEntry where
  destination := byteAt f 1
  source := byteAt f 2
  tag := if 9 ≤ f.length then some (halfAt f 3) else none
  code := if 10 ≤ f.length then some (byteAt f 5) else none
  argCount := if 11 ≤ f.length then some (byteAt f 6) else none
  args := if valid then (List.range (byteAt f 6).toNat).map (fun j => wordAt f (7 + 4 * j)) else []
  malformed := !valid
  origin := origin

/-- The general refusals, in their order (R135); none when the command's own tests are to be made. -/
def CommandEntry.refusal (e : CommandEntry) : Option (Status × List Word) :=
  if e.malformed then some (.malformed, [])
  else
    match e.command with
    | none => some (.unknownCommand, [])
    | some c =>
      if !c.countOk e.args.length then some (.malformed, [])
      else
        match c.firstBad e.args with
        | some j => some (.badArgument, [BitVec.ofNat 32 j])
        | none => none

/-! ### Named values (R13) -/

/-- Axis kind from its code. -/
def AxisKind.ofCode (n : Nat) : AxisKind := if n = 1 then .rotary else .linear

/-- Polarity from its code. -/
def Polarity.ofCode (n : Nat) : Polarity := if n = 1 then .inverted else .normal

/-- Direction qualifier from its code. -/
def Qualifier.ofCode (n : Nat) : Qualifier := if n = 1 then .forward else if n = 2 then .reverse else .any

/-- Fail action from its code. -/
def FailAction.ofCode (n : Nat) : FailAction := if n = 1 then .forceOn else if n = 2 then .hold else .forceOff

/-- Commit mode from its code. -/
def CommitMode.ofCode (n : Nat) : CommitMode := if n = 1 then .atCycle else .immediate

/-- Axis kind code. -/
def AxisKind.code (k : AxisKind) : Nat :=
  match k with
  | .linear => 0
  | .rotary => 1

/-- Polarity code. -/
def Polarity.code (p : Polarity) : Nat :=
  match p with
  | .normal => 0
  | .inverted => 1

/-- Direction qualifier code. -/
def Qualifier.code (q : Qualifier) : Nat :=
  match q with
  | .any => 0
  | .forward => 1
  | .reverse => 2

/-- Fail action code. -/
def FailAction.code (a : FailAction) : Nat :=
  match a with
  | .forceOff => 0
  | .forceOn => 1
  | .hold => 2

/-- Commit mode code. -/
def CommitMode.code (m : CommitMode) : Nat :=
  match m with
  | .immediate => 0
  | .atCycle => 1

/-- Axis state code. -/
def AxisState.code (a : AxisState) : Nat :=
  match a with
  | .unbound => 0
  | .waiting => 1
  | .acquiring => 2
  | .tracking => 3
  | .coasting => 4
  | .lost => 5

/-- Axis direction code. -/
def Direction.code (d : Direction) : Nat :=
  match d with
  | .unknown => 0
  | .forward => 1
  | .reverse => 2

/-- Link state code. -/
def Link.code (l : Link) : Nat :=
  match l with
  | .down => 0
  | .up => 1

/-- Reset level code. -/
def ResetLevel.code (l : ResetLevel) : Nat :=
  match l with
  | .tables => 0
  | .all => 1

/-- Port code: the port number of LINK_DOWN (R21). -/
def portCode (p : Port) : Nat :=
  match p with
  | .inPort => 0
  | .outPort => 1

/-- A number as a result word (R13). -/
def numWord (n : Nat) : Word := BitVec.ofNat 32 n

/-- A flag as a result word (R13). -/
def flagWord (b : Bool) : Word := numWord (flag b)

/-! ### Arguments of the edits -/

/-- An axis index argument that has passed its range check. -/
def CommandEntry.axisIndex (e : CommandEntry) (j : Nat) : Fin 16 := Fin.ofNat 16 (e.num j)

/-- A track index argument that has passed its range check. -/
def CommandEntry.trackIndex (e : CommandEntry) (j : Nat) : Fin 32 := Fin.ofNat 32 (e.num j)

/-- The definition DEFINE_AXIS carries; a LINEAR one holds modulus 0 (R45, R148). -/
def CommandEntry.axisDef (e : CommandEntry) : AxisDef where
  source := BitVec.ofNat 8 (e.num 1)
  kind := AxisKind.ofCode (e.num 2)
  modulus := if AxisKind.ofCode (e.num 2) = .rotary then e.num 3 else 0
  stale := BitVec.ofNat 8 (e.num 4)
  maxStep := e.num 5

/-- The definition DEFINE_TRACK carries (R69, R150). -/
def CommandEntry.trackDef (e : CommandEntry) : TrackDef where
  enabled := e.yes 1
  axis := Fin.ofNat 16 (e.num 2)
  slot := BitVec.ofNat 8 (e.num 3)
  bit := Fin.ofNat 32 (e.num 4)
  polarity := Polarity.ofCode (e.num 5)
  qualifier := Qualifier.ofCode (e.num 6)
  lead := Fin.ofNat 16 (e.num 7)
  failAction := FailAction.ofCode (e.num 8)
  stretch := BitVec.ofNat 8 (e.num 9)

/-- The windows LOAD_WINDOWS carries (R73). -/
def CommandEntry.windows (e : CommandEntry) : List Window :=
  (List.range (e.num 3)).map (fun j => { on := e.arg (4 + 2 * j), off := e.arg (5 + 2 * j) })

/-- The status slot definition DEFINE_STATUS_SLOT carries: 256 is none (R91). -/
def CommandEntry.statusSlot (e : CommandEntry) : Option Byte :=
  if e.num 0 = 256 then none else some (BitVec.ofNat 8 (e.num 0))

/-- The commit COMMIT asks for (R107). -/
def CommandEntry.commitOrder (e : CommandEntry) : CommitOrder where
  mode := CommitMode.ofCode (e.num 0)
  target := BitVec.ofNat 16 (e.num 1)
  origin := e.origin

/-- Four flags in latch order (R165, R166). -/
def CommandEntry.latchFlags (e : CommandEntry) : Latches where
  fault := e.yes 0
  axisLost := e.yes 1
  commitDone := e.yes 2
  linkChange := e.yes 3

end Sys2Proof.Machine
end

