-- ==== Sys2Proof/Machine/Axes.lean ====
section
/-!
DEFINITION. Machine/Axes.lean: taking a sample, the step check, the state machine of an axis (R49 to R66).
-/
namespace Sys2Proof.Machine

/-- A sum held within the LINEAR range (R62, R66). -/
def clampLinear (x : Int) : Int :=
  if 2147483647 < x then 2147483647 else if x < -2147483648 then -2147483648 else x

/-- A sum brought into the range of an axis's kind: modulo M for ROTARY, held at the limits for LINEAR (R62, R66). -/
def AxisDef.reduce (d : AxisDef) (x : Int) : Int :=
  match d.kind with
  | .linear => clampLinear x
  | .rotary => x % (d.modulus : Int)

/-- The delta from P to x (R50, R51). -/
def AxisDef.delta (d : AxisDef) (p x : Int) : Int :=
  match d.kind with
  | .linear => x - p
  | .rotary =>
    let r := (x - p) % (d.modulus : Int)
    if (d.modulus : Int) < 2 * r then r - (d.modulus : Int) else r

/-- What the three tests of R49 and the step check of R52 make of a frame for one axis. -/
inductive Sample where
  /-- A good sample x. -/
  | good (x : Int)
  /-- A miss, cause slot absent or a lost-sample announcement: no report. -/
  | absent
  /-- A miss, cause wrong type. -/
  | wrongType
  /-- A miss, cause out of range. -/
  | outOfRange
  /-- A miss, cause implausible step, with the magnitude of the delta. -/
  | implausible (magnitude : Nat)
deriving DecidableEq, Repr

/-- The candidate of a slot value for a kind (R10, R49): none when it is out of range. -/
def AxisDef.candidate (d : AxisDef) (w : Word) : Option Int :=
  match d.kind with
  | .linear => some w.toInt
  | .rotary => if w.toNat < d.modulus then some (w.toNat : Int) else none

/-- The step check applies in ACQUIRING, TRACKING and COASTING (R52). -/
def AxisState.stepChecked (a : AxisState) : Bool :=
  match a with
  | .acquiring | .tracking | .coasting => true
  | .unbound | .waiting | .lost => false

/-- A candidate through the step check (R52). -/
def AxisDef.checked (d : AxisDef) (r : AxisRecord) (x : Int) : Sample :=
  if r.state.stepChecked && decide (d.maxStep < (d.delta r.position x).natAbs) then
    .implausible (d.delta r.position x).natAbs
  else .good x

/-- The sample of an axis in a valid SAMPLE frame (R49, R52). -/
def AxisDef.sample (d : AxisDef) (f : Frame) (r : AxisRecord) : Sample :=
  match findSlot f d.source with
  | none => .absent
  | some offset =>
    match slotRole f offset with
    | .position =>
      match d.candidate (slotValue f offset) with
      | none => .outOfRange
      | some x => d.checked r x
    | .action | .status | .opaqueRole => .wrongType

/-- A good sample is consecutive with the last good one (R54). -/
def AxisRecord.consecutive (r : AxisRecord) (cycle : Half) : Bool :=
  match r.lastGood with
  | some c => decide (cycle = c + 1#16)
  | none => false

/-- The direction a newly learned velocity gives; 0 keeps the one held (R56, R57). -/
def learnedDirection (held : Direction) (v : Int) : Direction :=
  if 0 < v then .forward else if v < 0 then .reverse else held

/-- A good sample x of a frame of a cycle (R54 to R58). -/
def AxisDef.onGood (d : AxisDef) (cycle : Half) (x : Int) (r : AxisRecord) : AxisRecord :=
  match r.state with
  | .unbound => r
  | .waiting | .lost =>
    { state := .acquiring, position := x, velocity := 0, direction := .unknown, missed := 0#8, lastGood := some cycle }
  | .acquiring =>
    if r.consecutive cycle then
      { state := .tracking, position := x, velocity := d.delta r.position x,
        direction := learnedDirection r.direction (d.delta r.position x), missed := 0#8, lastGood := some cycle }
    else { r with position := x, missed := 0#8, lastGood := some cycle }
  | .tracking =>
    if r.consecutive cycle then
      { state := .tracking, position := x, velocity := d.delta r.position x,
        direction := learnedDirection r.direction (d.delta r.position x), missed := 0#8, lastGood := some cycle }
    else { r with position := x, missed := 0#8, lastGood := some cycle }
  | .coasting => { r with state := .tracking, position := x, missed := 0#8, lastGood := some cycle }

/-- A miss in ACQUIRING, TRACKING or COASTING (R59 to R62). In the other states the record stays. -/
def AxisDef.onMiss (d : AxisDef) (r : AxisRecord) : AxisRecord :=
  match r.state with
  | .unbound | .waiting | .lost => r
  | .acquiring =>
    if d.stale.toNat ≤ (byteUp r.missed).toNat then { r with state := .lost, missed := byteUp r.missed }
    else { r with missed := byteUp r.missed }
  | .tracking | .coasting =>
    if d.stale.toNat ≤ (byteUp r.missed).toNat then { r with state := .lost, missed := byteUp r.missed }
    else
      { r with state := .coasting, missed := byteUp r.missed, position := d.reduce (r.position + r.velocity) }

/-- A miss in a valid SAMPLE frame: a LOST axis counts it too (R64). -/
def AxisDef.onFrameMiss (d : AxisDef) (r : AxisRecord) : AxisRecord :=
  match r.state with
  | .lost => { r with missed := byteUp r.missed }
  | .unbound | .waiting | .acquiring | .tracking | .coasting => d.onMiss r

/-- The record of an axis after the update for a valid SAMPLE frame (R48). -/
def AxisDef.updated (d : AxisDef) (f : Frame) (r : AxisRecord) : AxisRecord :=
  match d.sample f r with
  | .good x => d.onGood (cycleOf f) x r
  | .absent | .wrongType | .outOfRange | .implausible _ => d.onFrameMiss r

/-- The report a sample's outcome makes (R53). -/
def AxisDef.sampleReports (d : AxisDef) (i : Fin 16) (out : Sample) : List Report :=
  match out with
  | .good _ | .absent => []
  | .wrongType => [{ code := .slotType, subject := d.source, detail := 0#16 }]
  | .outOfRange => [{ code := .sampleRange, subject := BitVec.ofNat 8 i.val, detail := 0#16 }]
  | .implausible magnitude =>
    [{ code := .implausibleStep, subject := BitVec.ofNat 8 i.val, detail := BitVec.ofNat 16 (min magnitude 65535) }]

/-- Whether an update takes an axis into LOST (R63). -/
def entersLost (before after : AxisRecord) : Bool :=
  decide (before.state ≠ .lost ∧ after.state = .lost)

/-- The record of one axis index after a valid SAMPLE frame: an UNBOUND axis takes no sample (R47, R48). -/
def Se.updatedAxis (e : Se) (f : Frame) (i : Fin 16) : AxisRecord :=
  match e.active.axes[i] with
  | none => e.axisRecords[i]
  | some d => if e.axisRecords[i].state = .unbound then e.axisRecords[i] else d.updated f e.axisRecords[i]

/-- What the update of one axis index for a valid SAMPLE frame tells the MU, event by event (R53, R63). -/
def Se.axisNotices (e : Se) (f : Frame) (i : Fin 16) : List (List Notice) :=
  match e.active.axes[i] with
  | none => []
  | some d =>
    if e.axisRecords[i].state = .unbound then []
    else (d.sampleReports i (d.sample f e.axisRecords[i])).map (fun r => [.fault r])
      ++ (if entersLost e.axisRecords[i] (e.updatedAxis f i) then [lostNotices i] else [])

/-- The axis updates of a valid SAMPLE frame (R48). -/
def Se.updateAxes (e : Se) (f : Frame) : Se := { e with axisRecords := tabulate 16 (e.updatedAxis f) }

/-- The record of one axis index after a lost-sample announcement (R48). -/
def Se.announcedAxis (e : Se) (i : Fin 16) : AxisRecord :=
  match e.active.axes[i] with
  | none => e.axisRecords[i]
  | some d => d.onMiss e.axisRecords[i]

/-- The axis indices a lost-sample announcement takes into LOST (R63). -/
def Se.lostByAnnouncement (e : Se) : List (Fin 16) :=
  (List.finRange 16).filter (fun i => entersLost e.axisRecords[i] (e.announcedAxis i))

/-- The effective position for a lead (R66). -/
def AxisDef.effective (d : AxisDef) (r : AxisRecord) (lead : Fin 16) : Int :=
  d.reduce (r.position + r.velocity * (lead.val : Int))

end Sys2Proof.Machine
end

