-- ==== Sys2Proof/Machine/Tracks.lean ====
section
/-!
DEFINITION. Machine/Tracks.lean: windows, evaluation of a track (R78 to R86), ACTION and STATUS writes (R87 to R92).
-/
namespace Sys2Proof.Machine

/-- A window covers an effective position (R79). -/
def Window.covers (w : Window) (kind : AxisKind) (x : Int) : Bool :=
  let a := readPosition kind w.on
  let b := readPosition kind w.off
  if a < b then decide (a ≤ x ∧ x < b)
  else if b < a then decide (kind = .rotary ∧ (a ≤ x ∨ x < b))
  else false

/-- A direction qualifier holds for an axis direction (R82). -/
def Qualifier.holds (q : Qualifier) (dir : Direction) : Bool :=
  match q, dir with
  | .any, _ => true
  | .forward, .forward => true
  | .reverse, .reverse => true
  | _, _ => false

/-- The match of a track (R82). -/
def TrackDef.matchesOn (d : TrackDef) (axis : AxisDef) (r : AxisRecord) (l : List Window) : Bool :=
  l.any (fun w => w.covers axis.kind (axis.effective r d.lead)) && d.qualifier.holds r.direction

/-- The level of a track from its match (R83). -/
def TrackDef.level (d : TrackDef) (isMatch : Bool) : Bool :=
  match d.polarity with
  | .normal => isMatch
  | .inverted => !isMatch

/-- The output and counter from a level (R84). -/
def TrackDef.stretched (d : TrackDef) (level : Bool) (r : TrackRecord) : TrackRecord :=
  if level then { output := true, stretchCounter := d.stretch }
  else if r.stretchCounter = 0#8 then { output := false, stretchCounter := 0#8 }
  else { output := true, stretchCounter := r.stretchCounter - 1#8 }

/-- The fail action (R85). -/
def TrackDef.failed (d : TrackDef) (r : TrackRecord) : TrackRecord :=
  match d.failAction with
  | .forceOff => { output := false, stretchCounter := 0#8 }
  | .forceOn => { r with output := true }
  | .hold => r

/-- The record of a track after its evaluation (R82 to R86). -/
def TrackDef.evaluated (d : TrackDef) (axis : AxisDef) (ar : AxisRecord) (l : List Window) (r : TrackRecord) :
    TrackRecord :=
  match ar.state with
  | .acquiring | .tracking | .coasting => d.stretched (d.level (d.matchesOn axis ar l)) r
  | .waiting | .lost | .unbound => d.failed r

/-- The record of one track index after the evaluation of a frame: a track that is absent or not enabled, or whose
axis is undefined (which validation excludes), keeps its record (R80, R81). -/
def Se.evaluatedTrack (e : Se) (t : Fin 32) : TrackRecord :=
  match e.active.enabledTrack t with
  | none => e.trackRecords[t]
  | some d =>
    match e.active.axes[d.axis] with
    | none => e.trackRecords[t]
    | some axis => d.evaluated axis e.axisRecords[d.axis] e.active.lists[t] e.trackRecords[t]

/-- The evaluation of every enabled track (R81). -/
def Se.evaluateTracks (e : Se) : Se := { e with trackRecords := tabulate 32 e.evaluatedTrack }

/-! ### ACTION slots (R87 to R90) -/

/-- The owned slot ids, each once (R87). -/
def Bank.ownedSlots (b : Bank) : List Byte :=
  ((List.finRange 32).filterMap (fun t => (b.enabledTrack t).map TrackDef.slot)).eraseDups

/-- A word with one bit set or cleared (R10). -/
def putBit (w : Word) (n : Fin 32) (value : Bool) : Word :=
  if value then w ||| (1#32 <<< n.val) else w &&& ~~~(1#32 <<< n.val)

/-- A slot value with the bits owned under a slot id replaced by the last outputs of their tracks (R88). -/
def Se.ownedValue (e : Se) (id : Byte) (arrived : Word) : Word :=
  (List.finRange 32).foldl (fun w t =>
    match e.active.enabledTrack t with
    | some d => if d.slot = id then putBit w d.bit e.trackRecords[t].output else w
    | none => w) arrived

/-- The work on a frame's slots so far. -/
structure SlotWork where
  frame : Frame
  /-- Some slot value has been written (R93). -/
  wrote : Bool
  /-- What the MU is told, event by event (R89, R90). -/
  notices : List (List Notice)
deriving DecidableEq, Repr

/-- The work for one owned slot id (R88 to R90). -/
def Se.ownSlot (e : Se) (w : SlotWork) (id : Byte) : SlotWork :=
  match findSlot w.frame id with
  | none =>
    { w with
      notices := w.notices
        ++ [[.count .actionSlotsMissing, .fault { code := .actionSlotMissing, subject := id, detail := 0#16 }]] }
  | some offset =>
    match slotRole w.frame offset with
    | .action =>
      { w with
        frame := putSlotValue w.frame offset (e.ownedValue id (slotValue w.frame offset))
        wrote := true }
    | .position | .status | .opaqueRole =>
      { w with notices := w.notices ++ [[.fault { code := .slotType, subject := id, detail := 0#16 }]] }

/-- The ACTION writes of a frame (R87). -/
def Se.writeActions (e : Se) (f : Frame) : SlotWork :=
  e.active.ownedSlots.foldl e.ownSlot { frame := f, wrote := false, notices := [] }

/-! ### The STATUS slot (R92) -/

/-- Where the status word is to be written: the offset of the STATUS slot, when the ACTIVE bank names one and the
frame carries it with type STATUS (R92). -/
def Se.statusOffset (e : Se) (f : Frame) : Option Nat :=
  match e.active.statusSlot with
  | none => none
  | some id =>
    match findSlot f id with
    | none => none
    | some offset => if slotRole f offset = .status then some offset else none

/-- What a status slot of the wrong type tells the MU (R92). -/
def Se.statusNotices (e : Se) (f : Frame) : List (List Notice) :=
  match e.active.statusSlot with
  | none => []
  | some id =>
    match findSlot f id with
    | none => []
    | some offset =>
      if slotRole f offset = .status then [] else [[.fault { code := .slotType, subject := id, detail := 0#16 }]]

end Sys2Proof.Machine
end

