-- ==== Sys2Proof/Machine/Ops.lean ====
section
/-!
DEFINITION. Machine/Ops.lean: the shared operations over the queues: the forward queue, the IQ, the intake of the CP,
the completion of a command, and reception at IN.
-/
namespace Sys2Proof.Machine

/-! ### The IQ (R35 to R39) -/

/-- Entries plus reserved places (R35). -/
def Iq.places (q : Iq) : Nat := q.replies.length + q.reserved

/-- A reply joins by reservation (R36). -/
def Iq.joinReserved (q : Iq) (f : Frame) : Iq :=
  { q with replies := q.replies ++ [{ frame := f, remaining := q.lifetime.toNat }], reserved := q.reserved - 1 }

/-- A copy joins without reservation (R36). -/
def Iq.joinCopy (q : Iq) (f : Frame) : Iq :=
  { q with replies := q.replies ++ [{ frame := f, remaining := q.lifetime.toNat }] }

/-- The hold counter takes the quiet count of a valid SAMPLE frame (R39). -/
def Iq.takeQuiet (q : Iq) (quiet : Byte) : Iq :=
  { q with hold := if quiet = 0#8 then (if q.hold = 0#8 then 0#8 else q.hold - 1#8) else quiet }

/-- Time passes: every remaining lifetime runs down (R38). -/
def Iq.age (q : Iq) (ms : Nat) : Iq :=
  { q with replies := q.replies.map (fun r => { r with remaining := r.remaining - ms }) }

/-! ### The forward queue (R29, R30) -/

/-- A frame joins the tail of the forward queue (R29). -/
def Rpu.join (r : Rpu) (f : Frame) (state : EntryState) : Rpu :=
  { r with forward := r.forward ++ [{ frame := f, state := state }] }

/-- The test of R30: a frame whose routes include a full forward queue is dropped whole, counted and reported;
otherwise its routes are taken. -/
def State.ifRoom (s : State) (f : Frame) (routes : State → State) : State :=
  if Config.forwardPlaces ≤ s.rpu.forward.length then
    s.send [[.count .forwardDrops,
      .fault { code := .forwardDrop, subject := 0#8, detail := BitVec.ofNat 16 (byteAt f 0).toNat }]]
  else routes s

/-- A frame placed ready in the forward queue, unchanged. -/
def State.forwardReady (s : State) (f : Frame) : State := { s with rpu := s.rpu.join f .ready }

/-- A lost sample announced to the SE, except in BYPASS (R25). -/
def State.announceLost (s : State) : State :=
  if s.rpu.mode = .bypass then s else { s with rpu := { s.rpu with handed := s.rpu.handed ++ [.lost] } }

/-- The first entry in evaluation becomes ready with the frame the SE hands back (R24). -/
def handBack (l : List ForwardEntry) (f : Frame) : List ForwardEntry :=
  match l with
  | [] => []
  | x :: rest =>
    match x.state with
    | .inEvaluation => { frame := f, state := .ready } :: rest
    | .ready => x :: handBack rest f

/-- The first frame in evaluation (R24). -/
def inEvaluation (l : List ForwardEntry) : Option Frame :=
  match l with
  | [] => none
  | x :: rest =>
    match x.state with
    | .inEvaluation => some x.frame
    | .ready => inEvaluation rest

/-! ### Replies and completion (R36, R133, R136) -/

/-- The REPLY frame for a command entry (R136, Table 1-4). -/
def replyFrame (e : CommandEntry) (address : Byte) (status : Status) (words : List Word) : Frame :=
  sealed ([3#8, e.source, address] ++ halfBytes e.tagValue
    ++ [e.codeValue, status.code, BitVec.ofNat 8 words.length] ++ words.flatMap wordBytes)

/-- A later acceptance has set the retry entry of a command's source again: the commands still behind it hold a tagged
unicast command of the same source (R132, R133; log entry 15). -/
def setAgain (e : CommandEntry) (behind : List CommandEntry) : Bool :=
  behind.any (fun o => decide (o.origin = .unicast ∧ o.source = e.source ∧ o.tagValue ≠ 0#16))

/-- The retry table when a command completes with a reply (R133). -/
def cacheReply (table : List RetryEntry) (e : CommandEntry) (behind : List CommandEntry) (reply : Frame) :
    List RetryEntry :=
  if e.tagValue = 0#16 || setAgain e behind then table
  else
    table.map (fun r =>
      if r.source = e.source ∧ r.tag = e.tagValue ∧ r.cached = none then { r with cached := some reply } else r)

/-- The command at the head completes with a status and result words (R136): a unicast one builds its reply, turns its
reservation into a reply entry, leaves the command queue and updates the retry table in one taking; a broadcast one
leaves the command queue. -/
def State.complete (s : State) (status : Status) (words : List Word) : State :=
  match s.cp.queue with
  | [] => s
  | e :: rest =>
    match e.origin with
    | .broadcast => { s with cp := { s.cp with queue := rest, flight := .none } }
    | .unicast =>
      { s with
        cp := { queue := rest, retry := cacheReply s.cp.retry e rest (replyFrame e s.rpu.address status words),
                flight := .none }
        iq := s.iq.joinReserved (replyFrame e s.rpu.address status words) }

/-- The CP begins the command at the head, when it is one that `admits`: the general refusals first, then the
command's own tests and effect (R134, R135). Where no such command can begin, nothing happens (log entry 1). -/
def State.beginsIf (s : State) (admits : CommandEntry → Bool) (own : CommandEntry → State) : State :=
  if s.resetHeld then s
  else
    match s.cp.queue, s.cp.flight with
    | e :: _, .none =>
      if admits e then
        match e.refusal with
        | some (status, words) => s.complete status words
        | none => own e
      else s
    | _, _ => s

/-- The CP begins the command at the head when its code names this command. -/
def State.begins (s : State) (c : Command) (own : CommandEntry → State) : State :=
  s.beginsIf (fun e => decide (e.command = some c)) own

/-- An edit of the STAGED bank behind the edit lock (R98): the bank it makes and the result words. -/
def State.edit (s : State) (change : Bank → Bank) (words : Bank → List Word) : State :=
  if s.se.commit.locks then s.complete .stageLocked []
  else
    State.complete { s with se := s.se.withStaged (change s.se.staged) } .ok (words (change s.se.staged))

/-! ### Intake of the CP (R126 to R132) -/

/-- The retry table without its least recent DONE entry; none when every entry is IN_PROGRESS. -/
def dropOldestDone (table : List RetryEntry) : Option (List RetryEntry) :=
  match table with
  | [] => none
  | r :: rest =>
    if r.cached.isSome then some rest else (dropOldestDone rest).map (fun l => r :: l)

/-- The retry table after the acceptance of a tagged unicast command (R132). A full table without a DONE entry, which
R132 excludes, is left as it is (log entry 16). -/
def acceptTag (table : List RetryEntry) (source : Byte) (tag : Half) : List RetryEntry :=
  let entry : RetryEntry := { source := source, tag := tag, cached := none }
  if table.any (fun r => r.source == source) then table.filter (fun r => r.source != source) ++ [entry]
  else if table.length < Config.retryPlaces then table ++ [entry]
  else
    match dropOldestDone table with
    | some l => l ++ [entry]
    | none => table

/-- An offer discarded for lack of a place (R128). -/
def State.discardOffer (s : State) (subject : Byte) (detail : Byte) : State :=
  s.send [[.count .commandsDiscarded,
    .fault { code := .commandDiscarded, subject := subject, detail := BitVec.ofNat 16 detail.toNat }]]

/-- A duplicate by the state of its retry entry (R127). -/
def State.takeDuplicate (s : State) (r : RetryEntry) : State :=
  match r.cached with
  | none => s.send [[.count .duplicatesDropped]]
  | some reply =>
    if s.iq.places < Config.replyPlaces then
      State.send { s with iq := s.iq.joinCopy reply } [[.count .duplicatesAnswered]]
    else s.send [[.count .duplicatesDropped]]

/-- Acceptance of a unicast command (R126 test 4): the queue, the reservation, the count, the retry table. -/
def State.acceptUnicast (s : State) (e : CommandEntry) : State :=
  State.send
    { s with
      cp := { s.cp with
        queue := s.cp.queue ++ [e]
        retry := if e.tagValue = 0#16 then s.cp.retry else acceptTag s.cp.retry e.source e.tagValue }
      iq := { s.iq with reserved := s.iq.reserved + 1 } }
    [[.count .commandsAccepted]]

/-- The retry entry that makes an offer a duplicate (R126 test 1). -/
def duplicateOf (table : List RetryEntry) (e : CommandEntry) : Option RetryEntry :=
  if e.tagValue = 0#16 then none else table.find? (fun r => r.source == e.source && r.tag == e.tagValue)

/-- The CP takes an offered unicast command by the tests of R126. -/
def State.offerUnicast (s : State) (e : CommandEntry) : State :=
  match duplicateOf s.cp.retry e with
  | some r => s.takeDuplicate r
  | none =>
    if Config.commandPlaces ≤ s.cp.queue.length then s.discardOffer e.source e.codeValue
    else if Config.replyPlaces ≤ s.iq.places then s.discardOffer e.source e.codeValue
    else s.acceptUnicast e

/-- A broadcast is accepted for execution (R130 test 1). -/
def CommandEntry.broadcastTaken (e : CommandEntry) : Bool :=
  match e.command with
  | some .commit => true
  | some .cancelCommit => true
  | some .reset => decide (e.args = [0#32])
  | _ => false

/-- The CP takes an offered broadcast by the tests of R130. -/
def State.offerBroadcast (s : State) (e : CommandEntry) : State :=
  if !e.broadcastTaken then s.send [[.count .broadcastsIgnored]]
  else if Config.commandPlaces ≤ s.cp.queue.length then s.discardOffer e.source e.codeValue
  else State.send { s with cp := { s.cp with queue := s.cp.queue ++ [e] } } [[.count .commandsAccepted]]

/-! ### Reception at IN (R22) -/

/-- A frame is received: IN is UP, and the pin is not held (R22, R182). -/
def State.receives (s : State) (f : Frame) : Bool :=
  !s.resetHeld && decide (s.rpu.linkIn = .up) && decide (f.length ≤ Config.receiveBytes)

/-- Reception has ended: nothing is being received. -/
def State.endReception (s : State) : State := { s with rpu := { s.rpu with receiving := none } }

/-- One symbol arrives at IN (R22). At the end delimiter the frame's row becomes pending; where reception ends without
completion, RX_ABORT does. While IN is DOWN or the pin is held the symbol is lost. -/
def State.arrive (s : State) (symbol : LineSymbol) : State :=
  if s.resetHeld || decide (s.rpu.linkIn = .down) then s
  else
    match s.rpu.receiving, symbol with
    | none, .startDelimiter => { s with rpu := { s.rpu with receiving := some [] } }
    | none, .data _ => s
    | none, .broken => s
    | none, .endDelimiter => s
    | some _, .startDelimiter => { s with pending := s.pending ++ [.rxAbort .secondStart] }
    | some bytes, .data b =>
      if bytes.length < Config.receiveBytes then { s with rpu := { s.rpu with receiving := some (bytes ++ [b]) } }
      else { s with pending := s.pending ++ [.rxAbort .tooLong] }
    | some _, .broken => { s with pending := s.pending ++ [.rxAbort .brokenCode] }
    | some bytes, .endDelimiter => { s.endReception with pending := s.pending ++ [receptionRow bytes] }

/-- The position of the first reply whose lifetime has run out (R38). -/
def Iq.overdue (q : Iq) : Option Nat := q.replies.findIdx? (fun r => decide (r.remaining = 0))

/-- What goes on outside the MU while no command waits: the next symbol of the line arrives; else an overdue reply's
expiry becomes pending; else one millisecond passes (R22, R38; log entry 3). -/
def State.pass (s : State) : State :=
  match s.line with
  | symbol :: rest => State.arrive { s with line := rest } symbol
  | [] =>
    match s.iq.overdue with
    | some position => { s with pending := s.pending ++ [.replyExpired position] }
    | none => { s with iq := s.iq.age 1 }

/-- What happens while no command waits: the MU takes what is on its way, then the rest goes on (log entries 3
and 20). -/
def State.idle (s : State) : State := s.deliver.pass

end Sys2Proof.Machine
end

