-- ==== Sys2Proof/Machine/Commits.lean ====
section
/-!
DEFINITION. Machine/Commits.lean: COMMIT, CANCEL_COMMIT and the completion of validation (R106 to R111, R118, R121).
-/
namespace Sys2Proof.Machine

/-- The SE with its commit record set. -/
def State.setCommit (s : State) (c : Commit) : State := { s with se := { s.se with commit := c } }

/-- The report of a broadcast AT_CYCLE commit whose target is not ahead; a unicast one makes none (R121). -/
def State.reportTooLate (s : State) (o : CommitOrder) : State :=
  match o.origin with
  | .unicast => s
  | .broadcast => s.send [[.fault { code := .commitTooLate, subject := 0#8, detail := o.target }]]

/-- The checks of R107 in their order, then the start of validation. -/
def State.startCommit (s : State) (o : CommitOrder) : State :=
  if s.rpu.mode = .bypass then s.complete .wrongMode []
  else if s.se.commit.locks || decide (s.se.stagedOp ≠ .idle) then s.complete .stageLocked []
  else if o.overtaken s.rpu.lastCycle then (s.reportTooLate o).complete .tooLate []
  else { s.setCommit (.validating o) with cp := { s.cp with flight := .validating } }

/-- COMMIT (R107, R156). -/
def execCommit (s : State) : Host.Outcome State Fault Refusal :=
  .next (s.begins .commit (fun e => s.startCommit e.commitOrder))

/-- The report of a broadcast commit whose validation fails; a unicast one makes none (R109, R121). -/
def State.reportFailed (s : State) (o : CommitOrder) (item : Item) : State :=
  match o.origin with
  | .unicast => s
  | .broadcast =>
    s.send [[.fault
      { code := .broadcastCommitFailed
        subject := BitVec.ofNat 8 item.subject
        detail := BitVec.ofNat 16 (item.code.code * 256 + item.detail % 256) }]]

/-- The end of a validation (R109, R110). -/
def State.finishValidation (s : State) (o : CommitOrder) : State :=
  match s.se.staged.validate with
  | some item =>
    ((s.setCommit .none).reportFailed o item).complete .validationFailed
      [numWord item.code.code, numWord item.subject, numWord item.detail]
  | none =>
    if o.overtaken s.rpu.lastCycle then ((s.setCommit .none).reportTooLate o).complete .tooLate []
    else
      (s.setCommit (.pending o)).complete .ok
        [numWord o.mode.code, numWord o.target.toNat, numWord s.se.generation.toNat]

/-- VALIDATION_COMPLETE (R109, R110). -/
def execValidationComplete (s : State) : Host.Outcome State Fault Refusal :=
  if s.resetHeld then .next s
  else
    match s.cp.flight, s.se.commit with
    | .validating, .validating o => .next (s.finishValidation o)
    | _, _ => .next s

/-- CANCEL_COMMIT (R118, R157). -/
def execCancelCommit (s : State) : Host.Outcome State Fault Refusal :=
  .next (s.begins .cancelCommit (fun _ =>
    match s.se.commit with
    | .pending o => (s.setCommit .none).complete .ok [numWord o.mode.code, numWord o.target.toNat]
    | .none | .validating _ => s.complete .nothingPending []))

end Sys2Proof.Machine
end

