-- ==== Sys2Proof/Machine/Edits.lean ====
section
/-!
DEFINITION. Machine/Edits.lean: the eight edit commands (R98) and the completions of STAGE_COPY and STAGE_CLEAR.
-/
namespace Sys2Proof.Machine

/-- DEFINE_AXIS (R148, R45). -/
def execDefineAxis (s : State) : Host.Outcome State Fault Refusal :=
  .next (s.begins .defineAxis (fun e =>
    s.edit (fun b => b.setAxis (e.axisIndex 0) (some e.axisDef)) (fun _ => [])))

/-- CLEAR_AXIS (R149, R45). -/
def execClearAxis (s : State) : Host.Outcome State Fault Refusal :=
  .next (s.begins .clearAxis (fun e => s.edit (fun b => b.setAxis (e.axisIndex 0) none) (fun _ => [])))

/-- DEFINE_TRACK (R150, R70). -/
def execDefineTrack (s : State) : Host.Outcome State Fault Refusal :=
  .next (s.begins .defineTrack (fun e =>
    s.edit (fun b => b.setTrack (e.trackIndex 0) e.trackDef) (fun _ => [])))

/-- CLEAR_TRACK (R151, R76): the reply carries the new free count. -/
def execClearTrack (s : State) : Host.Outcome State Fault Refusal :=
  .next (s.begins .clearTrack (fun e =>
    s.edit (fun b => b.clearTrack (e.trackIndex 0)) (fun b => [numWord b.free])))

/-- The length a load would give a list (R74 test 2). -/
def loadLength (old start n : Nat) (truncate : Bool) : Nat := if truncate then start + n else max old (start + n)

/-- The tests of R74 and the change of R75 on the STAGED bank, behind the edit lock. -/
def State.loadWindows (s : State) (e : CommandEntry) : State :=
  let t := e.trackIndex 0
  let old := s.se.staged.lists[t]
  let start := e.num 1
  let load := e.windows
  let len := loadLength old.length start load.length (e.yes 2)
  if s.se.commit.locks then s.complete .stageLocked []
  else if old.length < start then s.complete .badArgument [1#32]
  else if Config.listWindows < len then s.complete .badArgument [1#32]
  else if s.se.staged.free < len - old.length then
    s.complete .noSpace [numWord (len - old.length), numWord s.se.staged.free]
  else
    s.edit (fun b => b.setList t (loadedList old start (e.yes 2) load))
      (fun b => [numWord b.lists[t].length, numWord b.free])

/-- LOAD_WINDOWS (R152, R73 to R75). -/
def execLoadWindows (s : State) : Host.Outcome State Fault Refusal :=
  .next (s.begins .loadWindows (fun e => s.loadWindows e))

/-- DEFINE_STATUS_SLOT (R153, R91). -/
def execDefineStatusSlot (s : State) : Host.Outcome State Fault Refusal :=
  .next (s.begins .defineStatusSlot (fun e =>
    s.edit (fun b => { b with statusSlot := e.statusSlot }) (fun _ => [])))

/-- A staged operation begins unless the edit lock refuses it (R99, R100). -/
def State.startStaged (s : State) (op : StagedOp) (flight : Flight) : State :=
  if s.se.commit.locks then s.complete .stageLocked []
  else { s with se := { s.se with stagedOp := op }, cp := { s.cp with flight := flight } }

/-- STAGE_COPY (R154, R99). -/
def execStageCopy (s : State) : Host.Outcome State Fault Refusal :=
  .next (s.begins .stageCopy (fun _ => s.startStaged .copying .copying))

/-- STAGE_CLEAR (R155, R100). -/
def execStageClear (s : State) : Host.Outcome State Fault Refusal :=
  .next (s.begins .stageClear (fun _ => s.startStaged .clearing .clearing))

/-- COPY_COMPLETE (R99): the STAGED bank holds what the ACTIVE bank holds; the reply carries the generation. -/
def execCopyComplete (s : State) : Host.Outcome State Fault Refusal :=
  if !s.resetHeld && decide (s.cp.flight = .copying) then
    .next (State.complete { s with se := { s.se.withStaged s.se.active with stagedOp := .idle } } .ok
      [numWord s.se.generation.toNat])
  else .next s

/-- CLEAR_COMPLETE (R100): the STAGED bank is empty. -/
def execClearComplete (s : State) : Host.Outcome State Fault Refusal :=
  if !s.resetHeld && decide (s.cp.flight = .clearing) then
    .next (State.complete { s with se := { s.se.withStaged .empty with stagedOp := .idle } } .ok [])
  else .next s

end Sys2Proof.Machine
end

