-- ==== Sys2Proof/Machine/Evaluation.lean ====
section
/-!
DEFINITION. Machine/Evaluation.lean: the SE's evaluation of a SAMPLE frame and its taking of a lost sample.
-/
namespace Sys2Proof.Machine

/-- The SE after the due swap, the axis updates and the track evaluations of a frame (R48, R81, R112, R117). -/
def Se.evaluated (e : Se) (f : Frame) : Se :=
  ((if e.commit.swapDue (cycleOf f) then e.swap else e).updateAxes f).evaluateTracks

/-- What the swap and the axis updates of a frame tell the MU, event by event (R53, R63, R113, R115). -/
def Se.axisWorkNotices (e : Se) (f : Frame) : List (List Notice) :=
  if e.commit.swapDue (cycleOf f) then e.swapNotices ++ (List.finRange 16).flatMap (e.swap.axisNotices f)
  else (List.finRange 16).flatMap (e.axisNotices f)

/-- What the SE tells the MU of a frame before its evaluation ends, event by event (R92). -/
def Se.frameNotices (e : Se) (f : Frame) : List (List Notice) :=
  e.axisWorkNotices f ++ ((e.evaluated f).writeActions f).notices ++ (e.evaluated f).statusNotices f

/-- The part once the SE has done everything for a frame but write its STATUS slot: the records are updated and the MU
has taken every fault report and latch report the frame caused (R92), behind what it takes of earlier ones. -/
def State.beforeStatus (s : State) (f : Frame) : State :=
  State.takeAll { s.deliver with se := s.se.evaluated f } ((s.se.frameNotices f).flatten.filter (fun n => !n.isCount))

/-- The increments of events whose other notices the MU has taken (R92 names none, so they are on their way; R193). -/
def countsLeft (l : List (List Notice)) : List Event :=
  l.filterMap (fun e =>
    match e.filter Notice.isCount with
    | [] => none
    | x :: rest => some { notices := x :: rest, stage := if e.all Notice.isCount then .whole else .split })

/-- The RPU once the SE has taken the frame handed over first and handed it back as `f` (R24, R48). -/
def Rpu.handedBack (r : Rpu) (f : Frame) : Rpu := { r with handed := r.handed.tail, forward := handBack r.forward f }

/-- A frame in which no status word is written, as the SE hands it back: a fresh CRC when something was written
(R93). -/
def SlotWork.leaving (w : SlotWork) (f : Frame) : Frame := if w.wrote then resealed w.frame else f

/-- The evaluation of a frame (R48, R81 to R93, R112 to R117): where its status word is written, the MU has taken the
frame's reports before; elsewhere they are on their way as any others. SAMPLES_EVALUATED is counted at the end. -/
def State.evaluate (s : State) (f : Frame) : State :=
  let work := (s.se.evaluated f).writeActions f
  match (s.se.evaluated f).statusOffset work.frame with
  | some offset =>
    State.sendEvents
      { s.beforeStatus f with
        rpu := s.rpu.handedBack (resealed (putSlotValue work.frame offset (s.beforeStatus f).statusWord)) }
      (countsLeft (s.se.frameNotices f) ++ [Event.whole [.count .samplesEvaluated]])
  | none =>
    State.send { s with se := s.se.evaluated f, rpu := s.rpu.handedBack (work.leaving f) }
      (s.se.frameNotices f ++ [[.count .samplesEvaluated]])

/-- SAMPLE_EVALUATION (R48): the SE takes the next frame handed to it, evaluates it, counts it under SAMPLES_EVALUATED
and hands it back ready. -/
def execSampleEvaluation (s : State) : Host.Outcome State Fault Refusal :=
  if s.resetHeld then .next s
  else
    match s.rpu.handed, inEvaluation s.rpu.forward with
    | .sample :: _, some f => .next (s.evaluate f)
    | _, _ => .next s

/-- The part after the SE has taken a lost sample (R25, R48, R63). -/
def State.takeLost (s : State) : State :=
  State.send { s with se := { s.se with axisRecords := tabulate 16 s.se.announcedAxis } }
    (s.se.lostByAnnouncement.map lostNotices)

/-- LOST_SAMPLE (R25, R48): the SE takes a lost-sample announcement. -/
def execLostSample (s : State) : Host.Outcome State Fault Refusal :=
  if s.resetHeld then .next s
  else
    match s.rpu.handed with
    | .lost :: rest => .next (State.takeLost { s with rpu := { s.rpu with handed := rest } })
    | _ => .next s

end Sys2Proof.Machine
end

