-- ==== Sys2Proof/Machine/Modes.lean ====
section
/-!
DEFINITION. Machine/Modes.lean: SET_REPLY_LIFETIME, the mode commands, RELEASE_ADDRESS, RESET, and the requests they
make of the other blocks (R167 to R171, R173, R177 to R187).
-/
namespace Sys2Proof.Machine

/-- The CP with what its head waits for set. -/
def State.setFlight (s : State) (f : Flight) : State := { s with cp := { s.cp with flight := f } }

/-- The RPU with its station mode set. -/
def State.setMode (s : State) (m : Mode) : State := { s with rpu := { s.rpu with mode := m } }

/-- SET_REPLY_LIFETIME (R167): the new setting governs its own reply, which carries the old one. -/
def execSetReplyLifetime (s : State) : Host.Outcome State Fault Refusal :=
  .next (s.begins .setReplyLifetime (fun e =>
    State.complete { s with iq := { s.iq with lifetime := BitVec.ofNat 8 (e.num 0) } } .ok
      [numWord s.iq.lifetime.toNat]))

/-- BYPASS (R168, R177): in RUNNING the mode becomes BYPASS and the SE is asked to drop any pending commit. -/
def execBypass (s : State) : Host.Outcome State Fault Refusal :=
  .next (s.begins .bypass (fun _ =>
    if s.rpu.mode = .running then (s.setMode .bypass).setFlight .dropping else s.complete .wrongMode []))

/-- The SE drops a pending commit and tells the CP what it dropped (R120, R177 step 2). -/
def State.dropCommit (s : State) : State :=
  match s.se.commit with
  | .pending o => State.setFlight { s with se := { s.se with commit := .none } } (.dropped (some o))
  | .none | .validating _ => s.setFlight (.dropped none)

/-- The result words of BYPASS (R168). -/
def droppedWords (cancelled : Option CommitOrder) : List Word :=
  match cancelled with
  | some o => [1#32, numWord o.mode.code, numWord o.target.toNat]
  | none => [0#32, 0#32, 0#32]

/-- The CP builds the reply of BYPASS from what the SE told it (R177 step 3). -/
def State.replyDropped (s : State) : State :=
  match s.cp.flight with
  | .dropped cancelled => s.complete .ok (droppedWords cancelled)
  | _ => s

/-- The row of two requests that is taken now ends behind the first (log entry 7). -/
def State.pausing (s : State) : Bool := s.pauses.headD false

/-- The entry of `pauses` that the row has used is gone. -/
def State.nextPause (s : State) : State := { s with pauses := s.pauses.tail }

/-- COMMIT_DROP (R120, R177 steps 2 and 3): the requests of BYPASS that are due, both or the first alone (log entry 7). -/
def execCommitDrop (s : State) : Host.Outcome State Fault Refusal :=
  if s.resetHeld then .next s
  else
    match s.cp.flight with
    | .dropping =>
      .next (if s.pausing then s.nextPause.dropCommit else s.nextPause.dropCommit.replyDropped)
    | .dropped _ => .next s.replyDropped
    | _ => .next s

/-- RESUME (R169, R179): in BYPASS the SE is asked to clear the dynamic records. -/
def execResume (s : State) : Host.Outcome State Fault Refusal :=
  .next (s.begins .resume (fun _ =>
    if s.rpu.mode = .bypass then s.setFlight (.resuming .records) else s.complete .wrongMode []))

/-- The dynamic records as RESUME clears them (R179 step 1, R68, R95). -/
def Se.clearRecords (e : Se) : Se :=
  { e with
    axisRecords := tabulate 16 (fun i => .cleared (if e.active.axes[i].isSome then .waiting else .unbound))
    trackRecords := Vector.replicate 32 .cleared }

/-- One request of RESUME (R179). -/
def State.resumeStep (s : State) (step : ResumeStep) : State :=
  match step with
  | .records => State.setFlight { s with se := s.se.clearRecords } (.resuming .mode)
  | .mode => (s.setMode .running).setFlight (.resuming .reply)
  | .reply => s.complete .ok []

/-- The place of a request of RESUME in its order. -/
def resumeRank (g : ResumeStep) : Nat :=
  match g with
  | .records => 0
  | .mode => 1
  | .reply => 2

/-- The requests of RESUME from one up to another, in order (R179). -/
def resumeSteps (first last : ResumeStep) : List ResumeStep :=
  [ResumeStep.records, .mode, .reply].filter (fun g => decide (resumeRank first ≤ resumeRank g ∧ resumeRank g ≤ resumeRank last))

/-- DYNAMIC_RECORD_CLEAR (R179): the requests of RESUME that are due, up to `last` (log entry 7). -/
def execDynamicRecordClear (last : ResumeStep) (s : State) : Host.Outcome State Fault Refusal :=
  if s.resetHeld then .next s
  else
    match s.cp.flight with
    | .resuming next => .next ((resumeSteps next last).foldl State.resumeStep s)
    | _ => .next s

/-- The RPU gives up the address (R180 step 2); nothing of the command is left to do. -/
def State.giveUpAddress (s : State) : State :=
  State.setFlight { s with rpu := { s.rpu with address := 0#8, mode := .unaddressed } } .none

/-- The reply of RELEASE_ADDRESS is built with the old address and the command leaves the queue (R180 step 1, R136). -/
def State.replyReleasing (s : State) : State := (s.complete .ok []).setFlight .releasing

/-- RELEASE_ADDRESS (R170, R180): the requests that are due, both or one (log entry 7). The command behind it begins
once both are taken (log entry 8). -/
def execReleaseAddress (s : State) : Host.Outcome State Fault Refusal :=
  if !s.resetHeld && decide (s.cp.flight = .releasing) then .next s.giveUpAddress
  else
    .next (s.begins .releaseAddress (fun _ =>
      if s.pausing then s.nextPause.replyReleasing else s.nextPause.replyReleasing.giveUpAddress))

/-- The RESET at the head is taken at a level; either row takes one that a general refusal ends (log entry 13). -/
def CommandEntry.resetsAt (e : CommandEntry) (level : ResetLevel) : Bool :=
  decide (e.command = some .reset) && (e.refusal.isSome || decide (e.num 0 = level.code))

/-- RESET at level TABLES (R171, R185): the SE is asked to reset. -/
def execResetTables (s : State) : Host.Outcome State Fault Refusal :=
  .next (s.beginsIf (fun e => e.resetsAt .tables) (fun _ => s.setFlight (.resetting .tables .se)))

/-- The number of unicast commands among entries of the command queue (R125). -/
def unicasts (l : List CommandEntry) : Nat := l.countP (fun e => decide (e.origin = .unicast))

/-- The CP's own part of RESET ALL (R139): the commands behind it are removed and their reservations released, the
retry table and the reply queue are emptied. -/
def State.resetCp (s : State) : State :=
  { s with
    cp := { queue := s.cp.queue.take 1, retry := [], flight := .resetting .all .se }
    iq := { s.iq with replies := [], reserved := s.iq.reserved - unicasts (s.cp.queue.drop 1) } }

/-- RESET at level ALL (R171, R186 step 1). -/
def execResetAll (s : State) : Host.Outcome State Fault Refusal :=
  .next (s.beginsIf (fun e => e.resetsAt .all) (fun _ => s.resetCp))

/-- The RPU at its step of RESET ALL (R186 step 4). -/
def Rpu.resetAll (r : Rpu) : Rpu :=
  { r with
    lastCycle := none
    mode := match r.mode with
      | .bypass => .running
      | .running => .running
      | .unaddressed => .unaddressed }

/-- One request of RESET at a level (R185, R186); TABLES asks nothing of the IQ, the RPU and the MU. The MU may take
what is on its way before the last cycle seen is forgotten and before it is reset itself (R190, R187); the increments of
the commands accepted by then it has taken (R171). -/
def State.resetStep (level : ResetLevel) (s : State) (step : ResetStep) : State :=
  match step with
  | .se => State.setFlight { s with se := .reset } (.resetting level .iq)
  | .iq =>
    match level with
    | .tables => s.setFlight (.resetting level .rpu)
    | .all =>
      State.setFlight
        { s with iq := { s.iq with lifetime := BitVec.ofNat 8 Config.defaultLifetime, hold := 0#8 } }
        (.resetting level .rpu)
  | .rpu =>
    match level with
    | .tables => s.setFlight (.resetting level .mu)
    | .all => State.setFlight { s.deliver with rpu := s.rpu.resetAll } (.resetting level .mu)
  | .mu =>
    match level with
    | .tables => s.setFlight (.resetting level .reply)
    | .all => State.setFlight { s.deliver.acceptedBefore 0 with mu := .reset } (.resetting level .reply)
  | .reply => s.complete .ok [numWord level.code]

/-- The place of a request of RESET in its order. -/
def resetRank (g : ResetStep) : Nat :=
  match g with
  | .se => 0
  | .iq => 1
  | .rpu => 2
  | .mu => 3
  | .reply => 4

/-- The requests of RESET from one up to another, in order (R185, R186). -/
def resetSteps (first last : ResetStep) : List ResetStep :=
  [ResetStep.se, .iq, .rpu, .mu, .reply].filter (fun g => decide (resetRank first ≤ resetRank g ∧ resetRank g ≤ resetRank last))

/-- SE_TABLE_RESET (R123, R185, R186): the requests of RESET that are due, up to `last` (log entry 7). -/
def execSeTableReset (last : ResetStep) (s : State) : Host.Outcome State Fault Refusal :=
  if s.resetHeld then .next s
  else
    match s.cp.flight with
    | .resetting level next => .next ((resetSteps next last).foldl (State.resetStep level) s)
    | _ => .next s

end Sys2Proof.Machine
end

