-- ==== Sys2Proof/Machine/Monitor.lean ====
section
/-!
DEFINITION. Machine/Monitor.lean: the commands of the MU: fault record, counters, mask, latches (R162 to R166).
-/
namespace Sys2Proof.Machine

/-- The fault record as six result words (R162). -/
def faultWords (r : Option FaultRecord) : List Word :=
  match r with
  | none => [0#32, 0#32, 0#32, 0#32, 0#32, 0#32]
  | some f =>
    [1#32, numWord f.report.code.code, numWord f.report.subject.toNat, numWord f.report.detail.toNat,
      numWord f.cycle.toNat, numWord f.further.toNat]

/-- READ_FAULT (R162). -/
def execReadFault (s : State) : Host.Outcome State Fault Refusal :=
  .next (s.begins .readFault (fun _ => s.atRead.complete .ok (faultWords s.atRead.mu.fault)))

/-- CLEAR_FAULT (R163): the record is read, then emptied. -/
def execClearFault (s : State) : Host.Outcome State Fault Refusal :=
  .next (s.begins .clearFault (fun _ =>
    State.complete { s.atRead with mu := { s.atRead.mu with fault := none } } .ok (faultWords s.atRead.mu.fault)))

/-- The sixteen counters as result words (R164). -/
def counterWords (m : Mu) : List Word := m.counters.toList.map (fun c => numWord c.toNat)

/-- The part at a READ_COUNTERS: the MU has taken the increment of its own acceptance, and of those before it (R164);
that of a command accepted behind it may be on its way. -/
def State.atCount (s : State) : State := s.atRead.acceptedBefore s.cp.queue.tail.length

/-- READ_COUNTERS (R164, R194): with the clear flag yes, all sixteen are set to 0 in the same taking. -/
def execReadCounters (s : State) : Host.Outcome State Fault Refusal :=
  .next (s.begins .readCounters (fun e =>
    if e.yes 0 then
      State.complete { s.atCount with mu := { s.atCount.mu with counters := Vector.replicate 16 0#16 } } .ok
        (counterWords s.atCount.mu)
    else s.atCount.complete .ok (counterWords s.atCount.mu)))

/-- SET_ATTENTION_MASK (R165): all four enables are replaced. -/
def execSetAttentionMask (s : State) : Host.Outcome State Fault Refusal :=
  .next (s.begins .setAttentionMask (fun e =>
    State.complete { s with mu := { s.mu with mask := e.latchFlags } } .ok []))

/-- The latches with the marked ones cleared (R166). -/
def Latches.acknowledge (l marked : Latches) : Latches where
  fault := l.fault && !marked.fault
  axisLost := l.axisLost && !marked.axisLost
  commitDone := l.commitDone && !marked.commitDone
  linkChange := l.linkChange && !marked.linkChange

/-- The latches as four result words (R166). -/
def latchWords (l : Latches) : List Word :=
  [flagWord l.fault, flagWord l.axisLost, flagWord l.commitDone, flagWord l.linkChange]

/-- ACK_ATTENTION (R166, R196): the latches are read, then each marked one is cleared; a report on its way may be taken
before. -/
def execAckAttention (s : State) : Host.Outcome State Fault Refusal :=
  .next (s.begins .ackAttention (fun e =>
    State.complete { s.deliver with mu := { s.deliver.mu with latches := s.deliver.mu.latches.acknowledge e.latchFlags } }
      .ok (latchWords s.deliver.mu.latches)))

end Sys2Proof.Machine
end

