-- ==== Sys2Proof/Machine/Output.lean ====
section
/-!
DEFINITION. Machine/Output.lean: the output arbiter and the expiry of replies (R31 to R38).
-/
namespace Sys2Proof.Machine

/-- The head of the forward queue, when it is ready (R29). -/
def Rpu.readyHead (r : Rpu) : Option Frame :=
  match r.forward with
  | { frame := f, state := .ready } :: _ => some f
  | _ => none

/-- SEND_FORWARD_BEGIN (R31): the IDLE arbiter, with OUT UP and a ready head, begins sending it. -/
def execSendForwardBegin (s : State) : Host.Outcome State Fault Refusal :=
  if !s.resetHeld && decide (s.rpu.arbiter = .idle) && decide (s.rpu.linkOut = .up) && s.rpu.readyHead.isSome then
    .next { s with rpu := { s.rpu with arbiter := .sendingForward } }
  else .next s

/-- SEND_REPLY_BEGIN (R31, R37): the IDLE arbiter, with OUT UP, the forward queue empty and the hold counter 0, takes
the head reply, which leaves the reply queue. -/
def execSendReplyBegin (s : State) : Host.Outcome State Fault Refusal :=
  if !s.resetHeld && decide (s.rpu.arbiter = .idle) && decide (s.rpu.linkOut = .up) && s.rpu.forward.isEmpty
      && decide (s.iq.hold = 0#8) then
    match s.iq.replies with
    | r :: rest =>
      .next { s with
        rpu := { s.rpu with arbiter := .sendingReply r.frame }
        iq := { s.iq with replies := rest } }
    | [] => .next s
  else .next s

/-- FRAME_FORWARDED (R32): the frame being sent has left OUT. -/
def execFrameForwarded (s : State) : Host.Outcome State Fault Refusal :=
  if !s.resetHeld && decide (s.rpu.arbiter = .sendingForward) then
    .next (State.send { s with rpu := { s.rpu with arbiter := .idle, forward := s.rpu.forward.tail } }
      [[.count .framesForwarded]])
  else .next s

/-- REPLY_SENT (R32): the reply being sent has left OUT. -/
def execReplySent (s : State) : Host.Outcome State Fault Refusal :=
  if s.resetHeld then .next s
  else
    match s.rpu.arbiter with
    | .sendingReply _ => .next (State.send { s with rpu := { s.rpu with arbiter := .idle } } [[.count .repliesSent]])
    | _ => .next s

/-- OUT_DISCARD (R33): while OUT is DOWN the IDLE arbiter takes a ready head and discards it. -/
def execOutDiscard (s : State) : Host.Outcome State Fault Refusal :=
  if !s.resetHeld && decide (s.rpu.arbiter = .idle) && decide (s.rpu.linkOut = .down) && s.rpu.readyHead.isSome then
    .next (State.send { s with rpu := { s.rpu with forward := s.rpu.forward.tail } } [[.count .outDiscards]])
  else .next s

/-- REPLY_EXPIRED (R38): the lifetime of the reply at a position runs out. Whatever its lifetime still showed has
passed, for the other replies as well (log entry 9). The reply is removed, counted and reported. -/
def execReplyExpired (position : Nat) (s : State) : Host.Outcome State Fault Refusal :=
  if s.resetHeld then .next s
  else
    match s.iq.replies[position]? with
    | none => .next s
    | some r =>
      .next (State.send
        { s with iq := { s.iq with replies := (s.iq.age r.remaining).replies.eraseIdx position } }
        [[.count .repliesExpired, .fault { code := .replyExpired, subject := byteAt r.frame 1
                                           detail := BitVec.ofNat 16 (byteAt r.frame 5).toNat }]])

end Sys2Proof.Machine
end

