-- ==== Sys2Proof/Machine/Pins.lean ====
section
/-!
DEFINITION. Machine/Pins.lean: the reset pin, the lines of the two ports, and reception that ends without completion.
-/
namespace Sys2Proof.Machine

/-- RESET_PIN_ASSERTED (R182): every block takes its state after the reset pin and is held there, and the MU takes
none of the notices that were on their way. The model's own fields stay. -/
def execResetPinAsserted (s : State) : Host.Outcome State Fault Refusal :=
  .next { s with rpu := .reset, iq := .reset, se := .reset, cp := .reset, mu := .reset, onWay := [], resetHeld := true }

/-- RESET_PIN_RELEASED (R183): every block starts from the state it was held in. -/
def execResetPinReleased (s : State) : Host.Outcome State Fault Refusal := .next { s with resetHeld := false }

/-- The link state of a port (R21). -/
def Rpu.link (r : Rpu) (port : Port) : Link :=
  match port with
  | .inPort => r.linkIn
  | .outPort => r.linkOut

/-- The RPU with the link state of a port set (R21). -/
def Rpu.setLink (r : Rpu) (port : Port) (l : Link) : Rpu :=
  match port with
  | .inPort => { r with linkIn := l }
  | .outPort => { r with linkOut := l }

/-- The line of a port has yet to be acquired for the first time since the reset pin (R21, R183). -/
def Rpu.starts (r : Rpu) (port : Port) : Bool :=
  match port with
  | .inPort => r.startIn
  | .outPort => r.startOut

/-- The RPU once the line of a port is acquired (R21). -/
def Rpu.acquired (r : Rpu) (port : Port) : Rpu :=
  match port with
  | .inPort => { r with linkIn := .up, startIn := false }
  | .outPort => { r with linkOut := .up, startOut := false }

/-- LINE_ACQUIRED (R21, R34): a port that is DOWN changes to UP and reports to latch LINK_CHANGE. The first acquisition
since the reset pin sets it in the freshly cleared latches (R21, R183), so that no status word after the start-up lacks
it (R198, R202); the report of a later one is on its way like any other. -/
def execLineAcquired (port : Port) (s : State) : Host.Outcome State Fault Refusal :=
  if s.resetHeld || decide (s.rpu.link port = .up) then .next s
  else if s.rpu.starts port then .next { s with rpu := s.rpu.acquired port, mu := s.mu.latch .linkChange }
  else .next (State.send { s with rpu := s.rpu.acquired port } [[.latch .linkChange]])

/-- The RPU once what the port was doing is broken off, and what that counts: at IN a frame being received is
discarded (R22), at OUT a frame or reply being sent is cut short (R33). -/
def Rpu.broken (r : Rpu) (port : Port) : Rpu × List (List Notice) :=
  match port with
  | .inPort =>
    if r.receiving.isSome then ({ r with receiving := none }, [[.count .rxAborts]]) else (r, [])
  | .outPort =>
    match r.arbiter with
    | .idle => (r, [])
    | .sendingForward => ({ r with arbiter := .idle, forward := r.forward.tail }, [[.count .outDiscards]])
    | .sendingReply _ => ({ r with arbiter := .idle }, [[.count .outDiscards]])

/-- The fault report of a port that changes to DOWN (R21). -/
def linkDownReport (port : Port) : Report :=
  { code := .linkDown, subject := BitVec.ofNat 8 (portCode port), detail := 0#16 }

/-- LINE_LOST (R21): a port that is UP changes to DOWN, which is reported to latch LINK_CHANGE and as LINK_DOWN with the
port number as subject, and the port's traffic breaks off. -/
def execLineLost (port : Port) (s : State) : Host.Outcome State Fault Refusal :=
  if s.resetHeld || decide (s.rpu.link port = .down) then .next s
  else
    .next (State.send { s with rpu := ((s.rpu.setLink port .down).broken port).1 }
      ([.latch .linkChange, .fault (linkDownReport port)] :: ((s.rpu.setLink port .down).broken port).2))

/-- RX_ABORT (R22): the partial frame is discarded and counted under RX_ABORTS; at a second start delimiter reception
of a new frame begins. While IN is DOWN and nothing is being received there is nothing to abort (log entry 10). -/
def execRxAbort (cause : AbortCause) (s : State) : Host.Outcome State Fault Refusal :=
  if s.resetHeld || (decide (s.rpu.linkIn = .down) && s.rpu.receiving.isNone) then .next s
  else
    .next (State.send
      { s with rpu := { s.rpu with receiving := match cause with
          | .secondStart => some []
          | .lineDown | .tooLong | .brokenCode => none } }
      [[.count .rxAborts]])

end Sys2Proof.Machine
end

