-- ==== Sys2Proof/Machine/Reads.lean ====
section
/-!
DEFINITION. Machine/Reads.lean: the commands that report state and change none: identification, status, tables and
records (R146, R147, R158 to R161), and the command whose code is unknown (R135).
-/
namespace Sys2Proof.Machine

/-- The nine identity words (R146). -/
def identityWords : List Word := [0x0D4B#32, 0x1632#32, 1#32, 16#32, 32#32, 256#32, 16#32, 4#32, 6#32]

/-- IDENTIFY (R146). -/
def execIdentify (s : State) : Host.Outcome State Fault Refusal :=
  .next (s.begins .identify (fun _ => s.complete .ok identityWords))

/-- The commit mode as a result: 0 while NONE (R106). -/
def Commit.modeCode (c : Commit) : Nat :=
  match c with
  | .none => 0
  | .validating o => o.mode.code
  | .pending o => o.mode.code

/-- The commit target as a result: 0 while NONE (R106). -/
def Commit.targetCode (c : Commit) : Nat :=
  match c with
  | .none => 0
  | .validating o => o.target.toNat
  | .pending o => o.target.toNat

/-- The fourteen words of READ_STATUS, gathered at one moment (R147). -/
def State.statusWords (s : State) : List Word :=
  [s.statusWord, numWord s.se.generation.toNat, numWord s.se.commit.code, numWord s.se.commit.modeCode,
    numWord s.se.commit.targetCode, numWord s.cp.queue.length, numWord s.iq.replies.length, numWord s.iq.reserved,
    numWord s.iq.hold.toNat, numWord s.rpu.linkIn.code, numWord s.rpu.linkOut.code,
    numWord (s.rpu.lastCycle.getD 0#16).toNat, flagWord s.rpu.lastCycle.isSome, numWord s.iq.lifetime.toNat]

/-- READ_STATUS (R147); a report on its way to the MU may be taken before. -/
def execReadStatus (s : State) : Host.Outcome State Fault Refusal :=
  .next (s.begins .readStatus (fun _ => s.deliver.complete .ok s.deliver.statusWords))

/-- An axis definition as result words 0 to 5 of READ_AXIS (R158). -/
def axisDefWords (d : Option AxisDef) : List Word :=
  match d with
  | none => [0#32, 0#32, 0#32, 0#32, 0#32, 0#32]
  | some a =>
    [1#32, numWord a.source.toNat, numWord a.kind.code, numWord a.modulus, numWord a.stale.toNat, numWord a.maxStep]

/-- The fourteen words of READ_AXIS (R158, R67). -/
def State.axisWords (s : State) (i : Fin 16) : List Word :=
  axisDefWords s.se.active.axes[i]
    ++ [numWord s.se.axisRecords[i].state.code, BitVec.ofInt 32 s.se.axisRecords[i].position,
      BitVec.ofInt 32 s.se.axisRecords[i].velocity, numWord s.se.axisRecords[i].direction.code,
      numWord s.se.axisRecords[i].missed.toNat, numWord (s.se.axisRecords[i].lastGood.getD 0#16).toNat,
      flagWord s.se.axisRecords[i].lastGood.isSome, numWord s.se.generation.toNat]

/-- READ_AXIS (R158). -/
def execReadAxis (s : State) : Host.Outcome State Fault Refusal :=
  .next (s.begins .readAxis (fun e => s.complete .ok (s.axisWords (e.axisIndex 0))))

/-- The bank an argument names by role: ACTIVE 0, STAGED 1 (R13). -/
def State.bankByRole (s : State) (code : Nat) : Bank := if code = 1 then s.se.staged else s.se.active

/-- A track definition as result words 0 to 9 of READ_TRACK (R159). -/
def trackDefWords (d : Option TrackDef) : List Word :=
  match d with
  | none => List.replicate 10 0#32
  | some t =>
    [1#32, flagWord t.enabled, numWord t.axis.val, numWord t.slot.toNat, numWord t.bit.val, numWord t.polarity.code,
      numWord t.qualifier.code, numWord t.lead.val, numWord t.failAction.code, numWord t.stretch.toNat]

/-- The fourteen words of READ_TRACK (R159, R94). -/
def State.trackWords (s : State) (t : Fin 32) (b : Bank) : List Word :=
  trackDefWords b.tracks[t]
    ++ [numWord b.lists[t].length, flagWord s.se.trackRecords[t].output,
      numWord s.se.trackRecords[t].stretchCounter.toNat, numWord s.se.generation.toNat]

/-- READ_TRACK (R159). -/
def execReadTrack (s : State) : Host.Outcome State Fault Refusal :=
  .next (s.begins .readTrack (fun e => s.complete .ok (s.trackWords (e.trackIndex 0) (s.bankByRole (e.num 1)))))

/-- Windows as result words: on-position, then off-position (R160). -/
def windowWords (l : List Window) : List Word := l.flatMap (fun w => [w.on, w.off])

/-- READ_WINDOWS (R160, R77). -/
def execReadWindows (s : State) : Host.Outcome State Fault Refusal :=
  .next (s.begins .readWindows (fun e =>
    let l := (s.bankByRole (e.num 1)).lists[e.trackIndex 0]
    if l.length < e.num 2 then s.complete .badArgument [2#32]
    else s.complete .ok (windowWords ((l.drop (e.num 2)).take (e.num 3)))))

/-- A status slot definition as a result: 256 for none (R161). -/
def statusSlotCode (d : Option Byte) : Nat :=
  match d with
  | none => 256
  | some id => id.toNat

/-- The six words of READ_POOL (R161). -/
def State.poolWords (s : State) : List Word :=
  [numWord s.se.active.free, numWord s.se.staged.free, numWord (statusSlotCode s.se.active.statusSlot),
    numWord (statusSlotCode s.se.staged.statusSlot), numWord s.se.selector.code, numWord s.se.generation.toNat]

/-- READ_POOL (R161). -/
def execReadPool (s : State) : Host.Outcome State Fault Refusal :=
  .next (s.begins .readPool (fun _ => s.complete .ok s.poolWords))

/-- UNKNOWN_COMMAND (R135): the code of the command at the head is not in Table 1-7, so a general refusal completes
it: MALFORMED for a malformed frame, UNKNOWN_COMMAND otherwise. -/
def execUnknownCommand (s : State) : Host.Outcome State Fault Refusal :=
  .next (s.beginsIf (fun e => decide (e.command = none)) (fun _ => s))

end Sys2Proof.Machine
end

