-- ==== Sys2Proof/Machine/Reception.lean ====
section
/-!
DEFINITION. Machine/Reception.lean: the routes of a frame that has completed reception (R23 to R30, R174, R175).
A frame of another class than the row's is not received by that row, and nothing happens (log entry 1).
-/
namespace Sys2Proof.Machine

/-- The routes of a valid SAMPLE frame (R24): last cycle seen, quiet count, forward queue, and the SE unless BYPASS. -/
def State.routeSample (s : State) (f : Frame) : State :=
  if s.rpu.mode = .bypass then
    { s with
      rpu := { s.rpu.join f .ready with lastCycle := some (cycleOf f) }
      iq := s.iq.takeQuiet (quietOf f) }
  else
    { s with
      rpu := { s.rpu.join f .inEvaluation with
        lastCycle := some (cycleOf f)
        handed := s.rpu.handed ++ [.sample] }
      iq := s.iq.takeQuiet (quietOf f) }

/-- The routes of a frame that is lost for the axes: announced, and forwarded unchanged (R25). -/
def State.routeLost (s : State) (f : Frame) : State := s.announceLost.forwardReady f

/-- RECEIVE_SAMPLE (R24, R25): a SAMPLE frame with a good CRC completes reception. The MU may take what is on its way
before a valid one sets the last cycle seen (R190). -/
def execReceiveSample (f : Frame) (s : State) : Host.Outcome State Fault Refusal :=
  if s.receives f then
    match classify f with
    | .sample true => .next (s.endReception.ifRoom f (fun t => t.deliver.routeSample f))
    | .sample false => .next (s.endReception.ifRoom f (fun t => t.routeLost f))
    | _ => .next s
  else .next s

/-- RECEIVE_DAMAGED (R3, R23, R25, R28): counted under FRAMES_DAMAGED, announced when its kind byte is 01h, forwarded
with every byte as it arrived. -/
def execReceiveDamaged (f : Frame) (s : State) : Host.Outcome State Fault Refusal :=
  if s.receives f then
    match classify f with
    | .damaged =>
      .next (s.endReception.ifRoom f (fun t =>
        (if byteAt f 0 = 1#8 then t.routeLost f else t.forwardReady f).send [[.count .framesDamaged]]))
    | _ => .next s
  else .next s

/-- A COMMAND frame is unicast to the part: its destination is present and equals a station address other than 0 (R26,
R6). -/
def State.unicastHere (s : State) (f : Frame) : Bool :=
  decide (6 ≤ f.length) && decide (byteAt f 1 = s.rpu.address) && decide (s.rpu.address ≠ 0#8)

/-- A unicast command off the ring: taken by the CP, but for a malformed one of exactly 6 bytes, which has nowhere to
send a reply and is discarded (R129). -/
def State.takeUnicast (s : State) (f : Frame) (valid : Bool) : State :=
  if f.length = 6 then s.discardOffer 0#8 0#8 else s.offerUnicast (entryOf f valid .unicast)

/-- RECEIVE_COMMAND (R26): unicast to the part, valid broadcast, or forwarded only. -/
def execReceiveCommand (f : Frame) (s : State) : Host.Outcome State Fault Refusal :=
  if s.receives f then
    match classify f with
    | .command valid =>
      if s.unicastHere f then .next (s.endReception.takeUnicast f valid)
      else if valid && decide (byteAt f 1 = 255#8) then
        .next (s.endReception.ifRoom f (fun t => (t.forwardReady f).offerBroadcast (entryOf f true .broadcast)))
      else .next (s.endReception.ifRoom f (fun t => t.forwardReady f))
    | _ => .next s
  else .next s

/-- RECEIVE_REPLY (R27): the part's own returning reply is removed; every other reply is forwarded. -/
def execReceiveReply (f : Frame) (s : State) : Host.Outcome State Fault Refusal :=
  if s.receives f then
    match classify f with
    | .reply valid =>
      if valid && decide (byteAt f 2 = s.rpu.address) && decide (s.rpu.address ≠ 0#8) then
        .next (s.endReception.send [[.count .orphansRemoved]])
      else .next (s.endReception.ifRoom f (fun t => t.forwardReady f))
    | _ => .next s
  else .next s

/-- The address rule and the rewriting of a valid ENUMERATE frame (R174, R175). -/
def State.routeEnumerate (s : State) (f : Frame) : State :=
  if s.rpu.mode = .unaddressed ∧ assignable (nextAddressOf f) = true then
    { s with
      rpu := { s.rpu.join (enumerateLeaving f (nextAddressOf f + 1#8)) .ready with
        address := nextAddressOf f
        mode := .running } }
  else { s with rpu := s.rpu.join (enumerateLeaving f (nextAddressOf f)) .ready }

/-- RECEIVE_ENUMERATE (R174): a valid ENUMERATE frame completes reception. -/
def execReceiveEnumerate (f : Frame) (s : State) : Host.Outcome State Fault Refusal :=
  if s.receives f then
    match classify f with
    | .enumerate true => .next (s.endReception.ifRoom f (fun t => t.routeEnumerate f))
    | _ => .next s
  else .next s

/-- RECEIVE_FOREIGN (R23, R28): forwarded unchanged; a FOREIGN frame is counted under FRAMES_FOREIGN. -/
def execReceiveForeign (f : Frame) (s : State) : Host.Outcome State Fault Refusal :=
  if s.receives f then
    match classify f with
    | .foreign => .next (s.endReception.ifRoom f (fun t => (t.forwardReady f).send [[.count .framesForeign]]))
    | .noKind => .next (s.endReception.ifRoom f (fun t => t.forwardReady f))
    | .enumerate false => .next (s.endReception.ifRoom f (fun t => t.forwardReady f))
    | _ => .next s
  else .next s

end Sys2Proof.Machine
end

