-- ==== Sys2Proof/Machine/Dispatch.lean ====
section
/-!
DEFINITION. Machine/Dispatch.lean: one arm for each row of the table of operations and events.
-/
namespace Sys2Proof.Machine

def exec (i : Instr) (s : State) : Host.Outcome State Fault Refusal :=
  match i with
  | .resetPinAsserted => Sys2Proof.Machine.execResetPinAsserted s
  | .resetPinReleased => Sys2Proof.Machine.execResetPinReleased s
  | .lineAcquired port => Sys2Proof.Machine.execLineAcquired port s
  | .lineLost port => Sys2Proof.Machine.execLineLost port s
  | .rxAbort cause => Sys2Proof.Machine.execRxAbort cause s
  | .receiveSample frame => Sys2Proof.Machine.execReceiveSample frame s
  | .receiveDamaged frame => Sys2Proof.Machine.execReceiveDamaged frame s
  | .receiveCommand frame => Sys2Proof.Machine.execReceiveCommand frame s
  | .receiveReply frame => Sys2Proof.Machine.execReceiveReply frame s
  | .receiveEnumerate frame => Sys2Proof.Machine.execReceiveEnumerate frame s
  | .receiveForeign frame => Sys2Proof.Machine.execReceiveForeign frame s
  | .sampleEvaluation => Sys2Proof.Machine.execSampleEvaluation s
  | .lostSample => Sys2Proof.Machine.execLostSample s
  | .sendForwardBegin => Sys2Proof.Machine.execSendForwardBegin s
  | .sendReplyBegin => Sys2Proof.Machine.execSendReplyBegin s
  | .frameForwarded => Sys2Proof.Machine.execFrameForwarded s
  | .replySent => Sys2Proof.Machine.execReplySent s
  | .outDiscard => Sys2Proof.Machine.execOutDiscard s
  | .replyExpired position => Sys2Proof.Machine.execReplyExpired position s
  | .identify => Sys2Proof.Machine.execIdentify s
  | .readStatus => Sys2Proof.Machine.execReadStatus s
  | .defineAxis => Sys2Proof.Machine.execDefineAxis s
  | .clearAxis => Sys2Proof.Machine.execClearAxis s
  | .defineTrack => Sys2Proof.Machine.execDefineTrack s
  | .clearTrack => Sys2Proof.Machine.execClearTrack s
  | .loadWindows => Sys2Proof.Machine.execLoadWindows s
  | .stageCopy => Sys2Proof.Machine.execStageCopy s
  | .stageClear => Sys2Proof.Machine.execStageClear s
  | .defineStatusSlot => Sys2Proof.Machine.execDefineStatusSlot s
  | .commit => Sys2Proof.Machine.execCommit s
  | .cancelCommit => Sys2Proof.Machine.execCancelCommit s
  | .readAxis => Sys2Proof.Machine.execReadAxis s
  | .readTrack => Sys2Proof.Machine.execReadTrack s
  | .readWindows => Sys2Proof.Machine.execReadWindows s
  | .readPool => Sys2Proof.Machine.execReadPool s
  | .readFault => Sys2Proof.Machine.execReadFault s
  | .clearFault => Sys2Proof.Machine.execClearFault s
  | .readCounters => Sys2Proof.Machine.execReadCounters s
  | .setAttentionMask => Sys2Proof.Machine.execSetAttentionMask s
  | .ackAttention => Sys2Proof.Machine.execAckAttention s
  | .setReplyLifetime => Sys2Proof.Machine.execSetReplyLifetime s
  | .bypass => Sys2Proof.Machine.execBypass s
  | .resume => Sys2Proof.Machine.execResume s
  | .releaseAddress => Sys2Proof.Machine.execReleaseAddress s
  | .resetTables => Sys2Proof.Machine.execResetTables s
  | .resetAll => Sys2Proof.Machine.execResetAll s
  | .unknownCommand => Sys2Proof.Machine.execUnknownCommand s
  | .validationComplete => Sys2Proof.Machine.execValidationComplete s
  | .copyComplete => Sys2Proof.Machine.execCopyComplete s
  | .clearComplete => Sys2Proof.Machine.execClearComplete s
  | .commitDrop => Sys2Proof.Machine.execCommitDrop s
  | .dynamicRecordClear last => Sys2Proof.Machine.execDynamicRecordClear last s
  | .seTableReset last => Sys2Proof.Machine.execSeTableReset last s

end Sys2Proof.Machine
end

