-- ==== Sys2Proof/Machine/Step.lean ====
section
/-!
DEFINITION. Machine/Step.lean: one step of the part: the command at the front of the queue, or what happens while no
command waits.
-/
namespace Sys2Proof.Machine

/-- The command at the front of the queue is taken and executed on the state with the queue's rest. On an empty queue
the line, the lifetimes and the clock go on (`State.idle`, log entry 3). -/
def step (s : State) : Host.Outcome State Fault Refusal :=
  match s.pending with
  | c :: rest => exec c { s with pending := rest }
  | [] => .next s.idle

/-- The state with the command a word spells put at the front of its queue; no word spells one (log entry 5). -/
def State.withFetchWord (s : State) (nbits w : Nat) : State :=
  match decodeTableWord nbits w with
  | some c => { s with pending := c :: s.pending }
  | none => s

end Sys2Proof.Machine
end

