-- ==== Sys2Proof/Safety.lean ====
section
/-!
DEFINITION. Safety.lean: the laws the manual says hold at all times, as predicates of a state.
-/
namespace Sys2Proof.Safety

open Sys2Proof.Machine

/-- A bank's window pool adds up, and no list holds more than 16 windows (R71, R72). -/
def PoolOk (b : Bank) : Prop :=
  (∀ t : Fin 32, b.lists[t].length ≤ 16) ∧ b.used + b.free = 256

/-- Both banks' pools add up (R72). -/
def Pools (s : State) : Prop := PoolOk s.se.bankA ∧ PoolOk s.se.bankB

/-- Every queue keeps its capacity, and the reserved places are the unicast commands queued (R29, R35, R124, R125,
R131). -/
def Capacities (s : State) : Prop :=
  s.rpu.forward.length ≤ 2 ∧ s.cp.queue.length ≤ 4 ∧ s.iq.places ≤ 6 ∧ s.cp.retry.length ≤ 4
    ∧ s.iq.reserved = unicasts s.cp.queue

/-- The frames in evaluation are those the SE has yet to take, and a frame being sent is the ready head of the forward
queue (R24, R29, R31). -/
def Forwarding (s : State) : Prop :=
  s.rpu.handed.countP (fun h => decide (h = .sample))
      = s.rpu.forward.countP (fun x => decide (x.state = .inEvaluation))
    ∧ (s.rpu.arbiter = .sendingForward → s.rpu.readyHead.isSome = true)

/-- The address is 0 exactly while the mode is UNADDRESSED, and it is never above 250 (R40). A RESUME in flight has
found the part addressed (R179). -/
def Addressing (s : State) : Prop :=
  (s.rpu.address = 0#8 ↔ s.rpu.mode = .unaddressed) ∧ s.rpu.address.toNat ≤ 250
    ∧ ∀ g, s.cp.flight = .resuming g → s.rpu.mode ≠ .unaddressed

/-- The ACTIVE bank satisfies every validation condition, and while a commit is PENDING so does the STAGED bank (R97,
R98). A staged operation in flight meets no pending commit (R101). -/
def ActiveValid (s : State) : Prop :=
  s.se.active.validate = none
    ∧ (∀ o, s.se.commit = .pending o → s.se.staged.validate = none)
    ∧ (s.cp.flight = .copying ∨ s.cp.flight = .clearing → ∀ o, s.se.commit ≠ .pending o)

/-- The command in flight agrees with the commit state and the staged-operation state, and stands at the head of the
queue, but for a RELEASE_ADDRESS that has its reply built (R101, R108, R134, R180). -/
def InFlight (s : State) : Prop :=
  (s.cp.flight = .validating ↔ ∃ o, s.se.commit = .validating o)
    ∧ (s.cp.flight = .copying ↔ s.se.stagedOp = .copying)
    ∧ (s.cp.flight = .clearing ↔ s.se.stagedOp = .clearing)
    ∧ (s.se.stagedOp ≠ .idle → s.se.commit = .none)
    ∧ (s.cp.flight ≠ .none → s.cp.flight ≠ .releasing → s.cp.queue ≠ [])

/-- An axis is UNBOUND exactly while its ACTIVE definition is absent, and its record is then cleared (R47). -/
def Binding (s : State) : Prop :=
  ∀ i : Fin 16, (s.se.axisRecords[i].state = .unbound ↔ s.se.active.axes[i] = none)
    ∧ (s.se.axisRecords[i].state = .unbound → s.se.axisRecords[i] = .cleared .unbound)

/-- The fields of an axis definition lie in the ranges of R44. -/
def AxisDefOk (d : AxisDef) : Prop :=
  (d.kind = .linear → d.modulus = 0) ∧ (d.kind = .rotary → 2 ≤ d.modulus ∧ d.modulus ≤ 2147483648)
    ∧ 1 ≤ d.stale.toNat ∧ 1 ≤ d.maxStep ∧ d.maxStep ≤ 1073741824

/-- A bank's axis definitions are in range (R103). -/
def AxisDefsOk (b : Bank) : Prop := ∀ (i : Fin 16) (d : AxisDef), b.axes[i] = some d → AxisDefOk d

/-- A record's position and velocity lie in the ranges of R46 for a definition. -/
def RecordOk (d : AxisDef) (r : AxisRecord) : Prop :=
  (d.kind = .linear → -2147483648 ≤ r.position ∧ r.position ≤ 2147483647)
    ∧ (d.kind = .rotary → 0 ≤ r.position ∧ r.position < (d.modulus : Int))
    ∧ -1073741824 ≤ r.velocity ∧ r.velocity ≤ 1073741824

/-- Every definition is in range in both banks, and every record is in range for its ACTIVE definition (R44, R46). -/
def Records (s : State) : Prop :=
  AxisDefsOk s.se.bankA ∧ AxisDefsOk s.se.bankB
    ∧ ∀ (i : Fin 16) (d : AxisDef), s.se.active.axes[i] = some d → RecordOk d s.se.axisRecords[i]

/-- A retry entry IN_PROGRESS belongs to a queued unicast command of its source and tag behind which no later tagged
command of that source is queued (R131, R132). -/
def Owned (queue : List CommandEntry) (r : RetryEntry) : Prop :=
  ∃ before e behind, queue = before ++ e :: behind ∧ e.origin = .unicast ∧ e.source = r.source
    ∧ e.tagValue = r.tag ∧ setAgain e behind = false

/-- The retry table: no two entries of one source, no tag 0, and every entry IN_PROGRESS belongs to a queued command
(R131). -/
def Retries (s : State) : Prop :=
  (s.cp.retry.map RetryEntry.source).Nodup
    ∧ ∀ r, r ∈ s.cp.retry → r.tag ≠ 0#16 ∧ (r.cached = none → Owned s.cp.queue r)

/-- Every reply the part holds, waiting, being sent or cached, is a well-formed REPLY frame (R12). -/
def Replies (s : State) : Prop :=
  (∀ x, x ∈ s.iq.replies → classify x.frame = .reply true)
    ∧ (∀ r, r ∈ s.cp.retry → ∀ f, r.cached = some f → classify f = .reply true)
    ∧ (∀ f, s.rpu.arbiter = .sendingReply f → classify f = .reply true)

end Sys2Proof.Safety
end

