-- ==== Sys2Proof/Certificates/Slice0/Obligations.lean ====
section
/-!
DEFINITION. Certificates/Slice0/Obligations.lean: the statements for the provers, and the few words they share.
-/

namespace Sys2Proof.Claims

open Sys2Proof.Machine

/-! ### Shared words -/

/-- A frame is received while the pin is released, IN is UP and the frame fits the receive buffer (R22). -/
def Arrives (s : State) (f : Frame) : Prop := s.resetHeld = false ∧ s.rpu.linkIn = .up ∧ f.length ≤ 1536

/-- The forward queue has a place (R30). -/
def HasRoom (s : State) : Prop := s.rpu.forward.length < 2

/-- The state after a frame's reception has ended, with the frame in the forward queue in a state. -/
def placed (s : State) (f : Frame) (x : EntryState) : State :=
  { s with rpu := { s.rpu with receiving := none, forward := s.rpu.forward ++ [{ frame := f, state := x }] } }

/-- A COMMAND frame is unicast to the part (R6, R26). -/
def ToPart (s : State) (f : Frame) : Prop :=
  6 ≤ f.length ∧ byteAt f 1 = s.rpu.address ∧ s.rpu.address ≠ 0#8

/-- The CP is about to begin the command `e`, with `rest` behind it (R134). -/
def Begins (s : State) (e : CommandEntry) (rest : List CommandEntry) : Prop :=
  s.resetHeld = false ∧ s.cp.queue = e :: rest ∧ s.cp.flight = .none

/-- The command `e` is in flight at the head, and waits for what `flight` says (R134). -/
def Waits (s : State) (e : CommandEntry) (rest : List CommandEntry) (flight : Flight) : Prop :=
  s.resetHeld = false ∧ s.cp.queue = e :: rest ∧ s.cp.flight = flight

/-- The command came in a well-formed frame with this code and these argument words. -/
def Carries (e : CommandEntry) (code : Byte) (args : List Word) : Prop :=
  e.malformed = false ∧ e.code = some code ∧ e.args = args

/-- The state with the command at the head completed (R136): a unicast one leaves its reply at the tail of the reply
queue in its reserved place, with the lifetime setting, and the retry table updated by R133 (`CompletionCachesReply`
says how); a broadcast one leaves the queue and nothing else. -/
def finished (s : State) (e : CommandEntry) (rest : List CommandEntry) (status : Status) (words : List Word) : State :=
  match e.origin with
  | .broadcast => { s with cp := { s.cp with queue := rest, flight := .none } }
  | .unicast =>
    { s with
      cp := { queue := rest, retry := cacheReply s.cp.retry e rest (replyFrame e s.rpu.address status words),
              flight := .none }
      iq := { s.iq with
        replies := s.iq.replies
          ++ [{ frame := replyFrame e s.rpu.address status words, remaining := s.iq.lifetime.toNat }]
        reserved := s.iq.reserved - 1 } }

/-- Every notice the MU has been told of, on its way in `s` or `told` since, is in `t` either still on its way or taken
once, in some order, while the last cycle seen was that of `s`; with an empty `lag` nothing is left on its way (R190,
R193; log entry 20). What the MU makes of each notice says `MonitorTakesReportsAndCounts`. -/
def Tells (s t : State) (told : List Notice) : Prop :=
  ∃ taken : List Notice, t.mu = taken.foldl (fun m n => m.take s.rpu.lastCycle n) s.mu
    ∧ (taken ++ t.onWay.flatMap Event.notices).Perm (s.onWay.flatMap Event.notices ++ told)
    ∧ (s.lag = [] → t.onWay = [])

/-- Nothing but the RPU, the SE, the MU with what is on its way to it, and the model's own choices differs. -/
def SameElsewhere (s t : State) : Prop :=
  t.iq = s.iq ∧ t.cp = s.cp ∧ t.resetHeld = s.resetHeld ∧ t.pending = s.pending ∧ t.line = s.line

/-- The SE evaluates the frame `f`, with `handed` behind it (R48). -/
def Evaluates (s : State) (f : Frame) (handed : List Handed) : Prop :=
  s.resetHeld = false ∧ s.rpu.handed = .sample :: handed ∧ inEvaluation s.rpu.forward = some f

/-- The SE as it evaluates a frame, after the swap test (R112, R117). -/
def swapped (e : Se) (f : Frame) : Se := if e.commit.swapDue (cycleOf f) then e.swap else e

/-- The slot id `id` is owned: an enabled track of the bank names it (R87). -/
def Owned (b : Bank) (id : Byte) : Prop := ∃ t d, b.enabledTrack t = some d ∧ d.slot = id

/-- The rows of the commands with a code (Table 1-7). -/
def rowOf (code : Byte) : List Instr :=
  match code.toNat with
  | 0x01 => [.identify]
  | 0x02 => [.readStatus]
  | 0x10 => [.defineAxis]
  | 0x11 => [.clearAxis]
  | 0x12 => [.defineTrack]
  | 0x13 => [.clearTrack]
  | 0x14 => [.loadWindows]
  | 0x15 => [.stageCopy]
  | 0x16 => [.stageClear]
  | 0x17 => [.defineStatusSlot]
  | 0x20 => [.commit]
  | 0x21 => [.cancelCommit]
  | 0x30 => [.readAxis]
  | 0x31 => [.readTrack]
  | 0x32 => [.readWindows]
  | 0x33 => [.readPool]
  | 0x40 => [.readFault]
  | 0x41 => [.clearFault]
  | 0x42 => [.readCounters]
  | 0x43 => [.setAttentionMask]
  | 0x44 => [.ackAttention]
  | 0x50 => [.setReplyLifetime]
  | 0x51 => [.bypass]
  | 0x52 => [.resume]
  | 0x53 => [.releaseAddress]
  | 0x54 => [.resetTables, .resetAll]
  | _ => [.unknownCommand]

/-- The argument counts Table 7-1 gives for a code. -/
def countsOf (code : Byte) : List Nat :=
  match code.toNat with
  | 0x10 => [6]
  | 0x12 => [10]
  | 0x14 => [6, 8, 10, 12, 14, 16, 18, 20, 22, 24, 26, 28, 30, 32, 34, 36]
  | 0x20 | 0x31 => [2]
  | 0x32 | 0x43 | 0x44 => [4]
  | 0x11 | 0x13 | 0x17 | 0x30 | 0x42 | 0x50 | 0x54 => [1]
  | _ => [0]

/-- The ranges of the argument words of a command with a code, word by word (R13, R148 to R171): the lowest and the
highest value; a word the list does not reach is any pattern. -/
def rangesOf (code : Byte) (args : List Word) : List (Nat × Nat) :=
  match code.toNat with
  | 0x10 => [(0, 15), (0, 255), (0, 1), if args[2]? = some 1#32 then (2, 2147483648) else (0, 4294967295), (1, 255),
      (1, 1073741824)]
  | 0x11 | 0x30 => [(0, 15)]
  | 0x12 => [(0, 31), (0, 1), (0, 15), (0, 255), (0, 31), (0, 1), (0, 2), (0, 15), (0, 2), (0, 255)]
  | 0x13 => [(0, 31)]
  | 0x14 => [(0, 31), (0, 16), (0, 1), ((args.length - 4) / 2, (args.length - 4) / 2)]
  | 0x17 => [(0, 256)]
  | 0x20 => [(0, 1), (0, 65535)]
  | 0x31 => [(0, 31), (0, 1)]
  | 0x32 => [(0, 31), (0, 1), (0, 16), (1, 16)]
  | 0x42 | 0x54 => [(0, 1)]
  | 0x43 | 0x44 => [(0, 1), (0, 1), (0, 1), (0, 1)]
  | 0x50 => [(1, 255)]
  | _ => []

/-- Argument word `j` lies in its range. -/
def InRange (code : Byte) (args : List Word) (j : Nat) : Prop :=
  ∀ w r, args[j]? = some w → (rangesOf code args)[j]? = some r → r.1 ≤ w.toNat ∧ w.toNat ≤ r.2

/-- The counters in the order of READ_COUNTERS (R164). -/
def counterOrder : List Counter :=
  [.framesForwarded, .framesDamaged, .framesForeign, .samplesEvaluated, .forwardDrops, .outDiscards, .rxAborts,
    .commandsAccepted, .commandsDiscarded, .duplicatesAnswered, .duplicatesDropped, .repliesSent, .repliesExpired,
    .orphansRemoved, .actionSlotsMissing, .broadcastsIgnored]

/-- The number of events that are the increment of an accepted command (R126, R130). -/
def acceptances (l : List Event) : Nat := l.countP (fun e => decide (e.notices = [.count .commandsAccepted]))

/-- The validation error codes (Table 1-10). -/
def errorNumber (c : ErrorCode) : Nat :=
  match c with
  | .axisSlotClash => 0x01
  | .slotRoleClash => 0x02
  | .trackAxisUndefined => 0x03
  | .trackBitClash => 0x04
  | .windowEmpty => 0x05
  | .windowRange => 0x06
  | .windowWrapMisplaced => 0x07
  | .windowOrder => 0x08

/-- No two present axes of a bank share a source slot id (R103 step 1). -/
def AxesSound (b : Bank) : Prop :=
  ∀ (i j : Fin 16) (c d : AxisDef), b.axes[i] = some c → b.axes[j] = some d → c.source = d.source → i = j

/-- The status slot is no axis's source slot (R103 step 2). -/
def StatusSound (b : Bank) : Prop :=
  ∀ (i : Fin 16) (c : AxisDef), b.axes[i] = some c → b.statusSlot ≠ some c.source

/-- The window `w` at position `k` of a list breaks a condition, and none before it in the order of R105. -/
def WindowBreaks (c : AxisDef) (l : List Window) (k : Nat) (w : Window) (code : ErrorCode) : Prop :=
  (code = .windowEmpty ∧ readPosition c.kind w.on = readPosition c.kind w.off)
  ∨ (readPosition c.kind w.on ≠ readPosition c.kind w.off
    ∧ ((code = .windowRange ∧ c.kind = .rotary ∧ (c.modulus ≤ w.on.toNat ∨ c.modulus ≤ w.off.toNat))
      ∨ ((c.kind = .rotary → w.on.toNat < c.modulus ∧ w.off.toNat < c.modulus)
        ∧ ((code = .windowWrapMisplaced ∧ readPosition c.kind w.off < readPosition c.kind w.on
            ∧ (c.kind = .linear ∨ k + 1 ≠ l.length
              ∨ ∃ w0, l[0]? = some w0 ∧ readPosition c.kind w0.on < readPosition c.kind w.off))
          ∨ (code = .windowOrder
            ∧ (readPosition c.kind w.off < readPosition c.kind w.on → c.kind = .rotary ∧ k + 1 = l.length
              ∧ ∀ w0, l[0]? = some w0 → readPosition c.kind w.off ≤ readPosition c.kind w0.on)
            ∧ 0 < k ∧ ∃ v, l[k - 1]? = some v ∧ (readPosition c.kind w.on < readPosition c.kind v.off
              ∨ readPosition c.kind w.on ≤ readPosition c.kind v.on))))))

/-- The window `w` at position `k` of a list breaks no condition of R105. -/
def WindowSound (c : AxisDef) (l : List Window) (k : Nat) (w : Window) : Prop :=
  readPosition c.kind w.on ≠ readPosition c.kind w.off
  ∧ (c.kind = .rotary → w.on.toNat < c.modulus ∧ w.off.toNat < c.modulus)
  ∧ (readPosition c.kind w.off < readPosition c.kind w.on →
      c.kind = .rotary ∧ k + 1 = l.length
        ∧ ∀ w0, l[0]? = some w0 → readPosition c.kind w.off ≤ readPosition c.kind w0.on)
  ∧ (∀ v, 0 < k → l[k - 1]? = some v →
      readPosition c.kind v.off ≤ readPosition c.kind w.on ∧ readPosition c.kind v.on < readPosition c.kind w.on)

/-- The enabled track `d` at index `t` breaks no condition of R104, nor do its windows break one of R105. -/
def TrackSound (b : Bank) (t : Fin 32) (d : TrackDef) : Prop :=
  (∃ c, b.axes[d.axis] = some c
    ∧ ∀ (k : Nat) (w : Window), b.lists[t][k]? = some w → WindowSound c b.lists[t] k w)
  ∧ (∀ (i : Fin 16) (c : AxisDef), b.axes[i] = some c → c.source ≠ d.slot)
  ∧ b.statusSlot ≠ some d.slot
  ∧ (∀ (u : Fin 32) (o : TrackDef), u < t → b.tracks[u] = some o → o.enabled = true → o.slot = d.slot →
      o.bit ≠ d.bit)

/-- The enabled track `d` at index `t` breaks a condition, and none before it in the order of R104 and R105: the code
and the detail. -/
def TrackBreaks (b : Bank) (t : Fin 32) (d : TrackDef) (code : ErrorCode) (detail : Nat) : Prop :=
  (b.axes[d.axis] = none ∧ code = .trackAxisUndefined ∧ detail = d.axis.val)
  ∨ ∃ c, b.axes[d.axis] = some c
    ∧ ((∃ j : Fin 16, code = .slotRoleClash ∧ detail = j.val ∧ (∃ o, b.axes[j] = some o ∧ o.source = d.slot)
        ∧ ∀ (l : Fin 16) o, l < j → b.axes[l] = some o → o.source ≠ d.slot)
      ∨ ((∀ (l : Fin 16) o, b.axes[l] = some o → o.source ≠ d.slot)
        ∧ ((code = .slotRoleClash ∧ detail = 255 ∧ b.statusSlot = some d.slot)
          ∨ (b.statusSlot ≠ some d.slot
            ∧ ((∃ u : Fin 32, code = .trackBitClash ∧ detail = u.val ∧ u < t
                ∧ (∃ o, b.tracks[u] = some o ∧ o.enabled = true ∧ o.slot = d.slot ∧ o.bit = d.bit)
                ∧ ∀ (v : Fin 32) o, v < u → b.tracks[v] = some o → o.enabled = true → o.slot = d.slot → o.bit ≠ d.bit)
              ∨ ((∀ (v : Fin 32) o, v < t → b.tracks[v] = some o → o.enabled = true → o.slot = d.slot →
                    o.bit ≠ d.bit)
                ∧ ∃ w, b.lists[t][detail]? = some w ∧ WindowBreaks c b.lists[t] detail w code
                  ∧ ∀ j v, j < detail → b.lists[t][j]? = some v → WindowSound c b.lists[t] j v))))))

/-- The eight edit commands with argument words that pass the general refusals (R98). -/
def editRows : List (Byte × Instr) :=
  [(0x10#8, .defineAxis), (0x11#8, .clearAxis), (0x12#8, .defineTrack), (0x13#8, .clearTrack),
    (0x14#8, .loadWindows), (0x15#8, .stageCopy), (0x16#8, .stageClear), (0x17#8, .defineStatusSlot)]

end Sys2Proof.Claims

open Sys2Proof Sys2Proof.Machine Sys2Proof.Claims

/-! ### The queue of commands and the step -/

/-- A step runs the command at the front of the queue on the state with the queue's rest (the model's queue, log entry
2). -/
def Obligations.StepRunsFrontCommand : Prop :=
  ∀ (c : Instr) (rest : List Instr) (s : State),
    step { s with pending := c :: rest } = exec c { s with pending := rest }

/-- Every command, in every state, ends in a next state, and leaves the model's own queue and line as they are: the
model's choice where the manual gives the command no place (log entry 1). -/
def Obligations.EveryCommandEndsInANextState : Prop :=
  ∀ (c : Instr) (s : State), ∃ t, exec c s = .next t ∧ t.pending = s.pending ∧ t.line = s.line

/-- With no command waiting the MU takes what is on its way (log entry 20); then the line's next symbol arrives, else
an overdue reply's expiry becomes pending, else one millisecond passes. The model's choice (log entry 3).
R22: what a symbol does at IN: the start delimiter begins reception, data bytes are stored up to 1536; a 1537th byte,
a line code that is no data, and a second start delimiter make RX_ABORT pending; the end delimiter ends reception and
makes pending the row that receives the bytes; anything outside a frame, or while IN is DOWN or the pin is held, is
ignored.
R22 says the last of an end delimiter only; for the other symbols outside a frame, and for every symbol while IN is DOWN
or the pin is held, it is the model's reading (log entry 17). Which row receives a frame without a kind and a malformed
one is the model's reading too (log entry 18). -/
def Obligations.IdleStepGoesOn : Prop :=
  (∀ s : State, s.pending = [] →
    (∀ x l, s.line = x :: l → step s = .next (State.arrive { s.deliver with line := l } x))
    ∧ (s.line = [] → (∀ r, r ∈ s.iq.replies → r.remaining ≠ 0) →
        step s = .next { s.deliver with iq := { s.iq with
          replies := s.iq.replies.map (fun r => { r with remaining := r.remaining - 1 }) } })
    ∧ (s.line = [] → ∀ k r, s.iq.replies[k]? = some r → r.remaining = 0 →
        (∀ j x, j < k → s.iq.replies[j]? = some x → x.remaining ≠ 0) →
        step s = .next { s.deliver with pending := [.replyExpired k] }))
  ∧ (∀ (s : State) (x : LineSymbol),
    (s.resetHeld = true ∨ s.rpu.linkIn = .down → State.arrive s x = s)
    ∧ (s.resetHeld = false → s.rpu.linkIn = .up → s.rpu.receiving = none →
      State.arrive s x
        = if x = .startDelimiter then { s with rpu := { s.rpu with receiving := some [] } } else s)
    ∧ (∀ bytes : List Byte, s.resetHeld = false → s.rpu.linkIn = .up → s.rpu.receiving = some bytes →
      (∀ b, x = .data b → bytes.length < 1536 →
        State.arrive s x = { s with rpu := { s.rpu with receiving := some (bytes ++ [b]) } })
      ∧ (∀ b, x = .data b → 1536 ≤ bytes.length →
        State.arrive s x = { s with pending := s.pending ++ [.rxAbort .tooLong] })
      ∧ (x = .broken → State.arrive s x = { s with pending := s.pending ++ [.rxAbort .brokenCode] })
      ∧ (x = .startDelimiter → State.arrive s x = { s with pending := s.pending ++ [.rxAbort .secondStart] })
      ∧ (x = .endDelimiter → State.arrive s x = { s with
          rpu := { s.rpu with receiving := none }, pending := s.pending ++ [receptionRow bytes] })))
  ∧ (∀ f : Frame, receptionRow f = match classify f with
    | .damaged => .receiveDamaged f
    | .sample _ => .receiveSample f
    | .command _ => .receiveCommand f
    | .reply _ => .receiveReply f
    | .enumerate true => .receiveEnumerate f
    | .noKind | .foreign | .enumerate false => .receiveForeign f)

/-! ### Chapter 1: frames -/

/-- R2: the register starts at FFFFFFFFh, takes each byte by exclusive-or into its low eight bits and eight steps,
and is complemented; the check value; a frame with kind is damaged exactly when the CRC over bytes 0 to L-5 is not the
number in its last four bytes; what the part builds carries its CRC most significant byte first. -/
def Obligations.CrcIsComputedAsStated : Prop :=
  (∀ bytes : List Byte, crc bytes = ~~~(bytes.foldl (fun r b => Nat.repeat
      (fun x : Word => if x.getLsbD 0 then (x >>> 1) ^^^ 0xEDB88320#32 else x >>> 1) 8 (r ^^^ b.setWidth 32))
      0xFFFFFFFF#32))
    ∧ crc [0x31#8, 0x32#8, 0x33#8, 0x34#8, 0x35#8, 0x36#8, 0x37#8, 0x38#8, 0x39#8] = 0xCBF43926#32
    ∧ (∀ f : Frame, 5 ≤ f.length → (classify f = .damaged ↔
        crc (f.take (f.length - 4)) ≠ byteAt f (f.length - 4) ++ byteAt f (f.length - 3) ++ byteAt f (f.length - 2)
          ++ byteAt f (f.length - 1)))
    ∧ (∀ l : List Byte, sealed l = l ++ [(crc l).extractLsb' 24 8, (crc l).extractLsb' 16 8,
        (crc l).extractLsb' 8 8, (crc l).extractLsb' 0 8])

/-- The classes of a frame by length, CRC, kind byte and counts (section 1.2, R3 to R5). -/
def Obligations.FrameFallsIntoOneClass : Prop :=
  ∀ f : Frame,
    (f.length < 5 → classify f = .noKind)
    ∧ (5 ≤ f.length → crc (covered f) ≠ heldCrc f → classify f = .damaged)
    ∧ (5 ≤ f.length → crc (covered f) = heldCrc f →
      (byteAt f 0 = 1#8 → ∃ v, classify f = .sample v
        ∧ (v = true ↔ (byteAt f 5).toNat ≤ 200 ∧ f.length = 10 + 6 * (byteAt f 5).toNat))
      ∧ (byteAt f 0 = 2#8 → ∃ v, classify f = .command v
        ∧ (v = true ↔ (byteAt f 6).toNat ≤ 64 ∧ f.length = 11 + 4 * (byteAt f 6).toNat))
      ∧ (byteAt f 0 = 3#8 → ∃ v, classify f = .reply v
        ∧ (v = true ↔ (byteAt f 7).toNat ≤ 32 ∧ f.length = 12 + 4 * (byteAt f 7).toNat))
      ∧ (byteAt f 0 = 4#8 → ∃ v, classify f = .enumerate v ∧ (v = true ↔ f.length = 7))
      ∧ (byteAt f 0 = 0#8 ∨ 5 ≤ (byteAt f 0).toNat → classify f = .foreign))

/-- The two serial comparisons of R7, and the slot lookup of R9: the first slot of the id, or absent. -/
def Obligations.CyclesAndSlotsAreLookedUpAsStated : Prop :=
  (∀ c t : Half, atOrAfter c t = true ↔ (c.toNat + 65536 - t.toNat) % 65536 < 32768)
    ∧ (∀ t l : Half, strictlyAhead t l = true ↔
        1 ≤ (t.toNat + 65536 - l.toNat) % 65536 ∧ (t.toNat + 65536 - l.toNat) % 65536 ≤ 32767)
    ∧ (∀ (f : Frame) (id : Byte) (o : Nat), findSlot f id = some o ↔
        ∃ i, i < (byteAt f 5).toNat ∧ o = 6 + 6 * i ∧ byteAt f o = id ∧ ∀ j, j < i → byteAt f (6 + 6 * j) ≠ id)
    ∧ (∀ (f : Frame) (id : Byte), findSlot f id = none ↔
        ∀ i, i < (byteAt f 5).toNat → byteAt f (6 + 6 * i) ≠ id)

/-- The reply the CP builds, byte by byte (Table 1-4, Table 1-8, R12, R136): for up to 32 result words it is a
well-formed REPLY frame. -/
def Obligations.ReplyIsLaidOutByTable : Prop :=
  ∀ (e : CommandEntry) (address : Byte) (status : Status) (words : List Word), words.length ≤ 32 →
    (replyFrame e address status words).length = 12 + 4 * words.length
    ∧ byteAt (replyFrame e address status words) 0 = 3#8
    ∧ byteAt (replyFrame e address status words) 1 = e.source
    ∧ byteAt (replyFrame e address status words) 2 = address
    ∧ halfAt (replyFrame e address status words) 3 = e.tag.getD 0#16
    ∧ byteAt (replyFrame e address status words) 5 = e.code.getD 0#8
    ∧ byteAt (replyFrame e address status words) 6 = (match status with
      | .ok => 0x00#8
      | .malformed => 0x01#8
      | .unknownCommand => 0x02#8
      | .badArgument => 0x03#8
      | .stageLocked => 0x04#8
      | .noSpace => 0x05#8
      | .validationFailed => 0x06#8
      | .tooLate => 0x07#8
      | .nothingPending => 0x08#8
      | .wrongMode => 0x09#8)
    ∧ (byteAt (replyFrame e address status words) 7).toNat = words.length
    ∧ (∀ j w, words[j]? = some w → wordAt (replyFrame e address status words) (8 + 4 * j) = w)
    ∧ classify (replyFrame e address status words) = .reply true

/-- The status word field by field (Table 1-6, R199), the attention summary included (R198). -/
def Obligations.StatusWordFields : Prop :=
  ∀ s : State,
    ((s.statusWord.extractLsb' 30 2).toNat = match s.rpu.mode with
      | .unaddressed => 0
      | .running => 1
      | .bypass => 2)
    ∧ (s.statusWord.getLsbD 29 = decide (s.se.selector = .b))
    ∧ ((s.statusWord.extractLsb' 27 2).toNat = match s.se.commit with
      | .none => 0
      | .validating _ => 1
      | .pending _ => 2)
    ∧ (s.statusWord.getLsbD 26 = true ↔
        (s.mu.latches.fault = true ∧ s.mu.mask.fault = true) ∨ (s.mu.latches.axisLost = true ∧ s.mu.mask.axisLost = true)
          ∨ (s.mu.latches.commitDone = true ∧ s.mu.mask.commitDone = true)
          ∨ (s.mu.latches.linkChange = true ∧ s.mu.mask.linkChange = true))
    ∧ s.statusWord.getLsbD 25 = s.mu.fault.isSome
    ∧ s.statusWord.getLsbD 24 = s.mu.latches.fault
    ∧ s.statusWord.getLsbD 23 = s.mu.latches.axisLost
    ∧ s.statusWord.getLsbD 22 = s.mu.latches.commitDone
    ∧ s.statusWord.getLsbD 21 = s.mu.latches.linkChange
    ∧ (s.statusWord.extractLsb' 16 5).toNat = s.se.axisRecords.toList.countP (fun r => decide (r.state = .lost))
    ∧ (s.statusWord.extractLsb' 8 8).toNat = s.se.generation.toNat % 256
    ∧ s.statusWord.extractLsb' 0 8 = s.rpu.address

/-! ### Chapter 2: pins, lines, reception -/

/-- RESET_N low puts every block in its state after the reset pin, with nothing on its way to the MU; RESET_N high lets
every block start from there; and while the pin is held no command but these two changes anything (R182, R183; log entry
1).
R21, R183, R198, R202: whichever line is acquired first after the pin, latch LINK_CHANGE is set then, alone, and a status
word composed there shows it and the attention summary, whatever the model's `lag`. -/
def Obligations.ResetPinHoldsEveryBlock : Prop :=
  (∀ s : State, exec .resetPinAsserted s = .next
      { rpu := .reset, iq := .reset, se := .reset, cp := .reset, mu := .reset, onWay := [], resetHeld := true,
        pending := s.pending, line := s.line, lag := s.lag, pauses := s.pauses,
        choices := s.choices })
    ∧ (∀ s : State, exec .resetPinReleased s = .next { s with resetHeld := false })
    ∧ (∀ (c : Instr) (s : State), s.resetHeld = true → c ≠ .resetPinAsserted → c ≠ .resetPinReleased →
        exec c s = .next s)
    ∧ (∀ (s : State) (port : Port), ∃ t u v, exec .resetPinAsserted s = .next t ∧ exec .resetPinReleased t = .next u
        ∧ exec (.lineAcquired port) u = .next v
        ∧ v.mu = { Mu.reset with
            latches := { fault := false, axisLost := false, commitDone := false, linkChange := true } }
        ∧ v.onWay = [] ∧ v.statusWord.getLsbD 21 = true ∧ v.statusWord.getLsbD 26 = true)

/-- LINE_ACQUIRED and LINE_LOST (R21, R22, R33): a port that changes sends a report to latch LINK_CHANGE, and the first
acquisition of its line since the reset pin sets the latch (R183); a change to DOWN sends the fault report LINK_DOWN with the port number, aborts a frame being received at IN, and cuts short what
OUT is sending.
RX_ABORT discards the partial frame and counts it, whatever its cause; after a second start delimiter a new
reception has begun (R22; log entry 10). -/
def Obligations.LineChangesAndAbortsAreReported : Prop :=
  (∀ s : State, s.resetHeld = false →
    (s.rpu.linkIn = .down → s.rpu.startIn = true → exec (.lineAcquired .inPort) s = .next { s with
      rpu := { s.rpu with linkIn := .up, startIn := false }
      mu := { s.mu with latches := { s.mu.latches with linkChange := true } } })
    ∧ (s.rpu.linkIn = .down → s.rpu.startIn = false → exec (.lineAcquired .inPort) s
      = .next (State.send { s with rpu := { s.rpu with linkIn := .up } } [[.latch .linkChange]]))
    ∧ (s.rpu.linkOut = .down → s.rpu.startOut = true → exec (.lineAcquired .outPort) s = .next { s with
      rpu := { s.rpu with linkOut := .up, startOut := false }
      mu := { s.mu with latches := { s.mu.latches with linkChange := true } } })
    ∧ (s.rpu.linkOut = .down → s.rpu.startOut = false → exec (.lineAcquired .outPort) s
      = .next (State.send { s with rpu := { s.rpu with linkOut := .up } } [[.latch .linkChange]]))
    ∧ (s.rpu.linkIn = .up → exec (.lineLost .inPort) s
      = .next (State.send { s with rpu := { s.rpu with linkIn := .down, receiving := none } }
        ([.latch .linkChange, .fault { code := .linkDown, subject := 0#8, detail := 0#16 }]
          :: if s.rpu.receiving = none then [] else [[.count .rxAborts]])))
    ∧ (s.rpu.linkOut = .up → ∃ n : List Notice,
        n = [.latch .linkChange, .fault { code := .linkDown, subject := 1#8, detail := 0#16 }]
        ∧ exec (.lineLost .outPort) s = .next (match s.rpu.arbiter with
          | .idle => State.send { s with rpu := { s.rpu with linkOut := .down } } [n]
          | .sendingForward => State.send { s with
              rpu := { s.rpu with linkOut := .down, arbiter := .idle, forward := s.rpu.forward.tail } }
              [n, [.count .outDiscards]]
          | .sendingReply _ => State.send { s with rpu := { s.rpu with linkOut := .down, arbiter := .idle } }
              [n, [.count .outDiscards]])))
  ∧ (∀ (s : State) (cause : AbortCause) (bytes : List Byte), s.resetHeld = false → s.rpu.receiving = some bytes →
    exec (.rxAbort cause) s = .next (State.send
      { s with rpu := { s.rpu with receiving := if cause = .secondStart then some [] else none } }
      [[.count .rxAborts]]))

/-- R30: with two frames in the forward queue, a frame of any class whose routes include the queue is discarded
before any route is taken, counted and reported with its byte 0. -/
def Obligations.FullForwardQueueDropsTheFrameWhole : Prop :=
  ∀ (s : State) (f : Frame), Arrives s f → 2 ≤ s.rpu.forward.length →
    (∀ v, classify f = .command v → ¬ ToPart s f) →
    ¬ (classify f = .reply true ∧ byteAt f 2 = s.rpu.address ∧ s.rpu.address ≠ 0#8) →
    exec (receptionRow f) s = .next (State.send { s with rpu := { s.rpu with receiving := none } }
      [[.count .forwardDrops,
        .fault { code := .forwardDrop, subject := 0#8, detail := BitVec.ofNat 16 (byteAt f 0).toNat }]])

/-- R24, R39, R41: a valid SAMPLE frame sets the last cycle seen, moves the hold counter by its quiet count, and joins
the forward queue: ready in BYPASS, else in evaluation and handed to the SE. What is on its way to the MU may be
taken before the last cycle seen is set (R190, log entry 20). -/
def Obligations.ValidSampleIsRecordedAndQueued : Prop :=
  ∀ (s : State) (f : Frame) (u : State), Arrives s f → HasRoom s → classify f = .sample true →
    u = State.deliver { s with rpu := { s.rpu with receiving := none } } →
    ∃ hold : Byte,
      hold.toNat = (if (byteAt f 4).toNat = 0 then s.iq.hold.toNat - 1 else (byteAt f 4).toNat)
      ∧ exec (.receiveSample f) s = .next (if s.rpu.mode = .bypass then
          { u with
            rpu := { (placed s f .ready).rpu with lastCycle := some (byteAt f 2 ++ byteAt f 3) }
            iq := { s.iq with hold := hold } }
        else
          { u with
            rpu := { (placed s f .inEvaluation).rpu with
              lastCycle := some (byteAt f 2 ++ byteAt f 3)
              handed := s.rpu.handed ++ [.sample] }
            iq := { s.iq with hold := hold } })

/-- R25, R28, R3: a malformed SAMPLE frame and a damaged frame of kind byte 01h are announced to the SE, except in
BYPASS, and forwarded unchanged; a damaged frame is counted; nothing else of the part changes. -/
def Obligations.LostSampleIsAnnouncedAndForwarded : Prop :=
  ∀ (s : State) (f : Frame), Arrives s f → HasRoom s →
    (classify f = .sample false → exec (.receiveSample f) s = .next { s with
      rpu := { (placed s f .ready).rpu with
        handed := if s.rpu.mode = .bypass then s.rpu.handed else s.rpu.handed ++ [.lost] } })
    ∧ (classify f = .damaged → byteAt f 0 = 1#8 → exec (.receiveDamaged f) s = .next (State.send { s with
      rpu := { (placed s f .ready).rpu with
        handed := if s.rpu.mode = .bypass then s.rpu.handed else s.rpu.handed ++ [.lost] } }
      [[.count .framesDamaged]]))
    ∧ (classify f = .damaged → byteAt f 0 ≠ 1#8 →
      exec (.receiveDamaged f) s = .next (State.send (placed s f .ready) [[.count .framesDamaged]]))

/-- R27: the part's own returning reply is removed and counted, whatever the forward queue holds; every other REPLY
frame, valid or malformed, is placed ready in the forward queue as it arrived, and one that finds the queue full is
dropped by R30.
R23, R28: a frame of no kind and a malformed ENUMERATE frame are forwarded unchanged and uncounted; a FOREIGN
frame is forwarded unchanged and counted. -/
def Obligations.RepliesAndUnknownFramesPass : Prop :=
  (∀ (s : State) (f : Frame) (valid : Bool), Arrives s f → classify f = .reply valid →
    (valid = true → byteAt f 2 = s.rpu.address → s.rpu.address ≠ 0#8 → exec (.receiveReply f) s
      = .next (State.send { s with rpu := { s.rpu with receiving := none } } [[.count .orphansRemoved]]))
    ∧ (valid = false ∨ byteAt f 2 ≠ s.rpu.address ∨ s.rpu.address = 0#8 → HasRoom s →
      exec (.receiveReply f) s = .next (placed s f .ready)))
  ∧ (∀ (s : State) (f : Frame), Arrives s f → HasRoom s →
    (classify f = .noKind ∨ classify f = .enumerate false →
      exec (.receiveForeign f) s = .next (placed s f .ready))
    ∧ (classify f = .foreign →
      exec (.receiveForeign f) s = .next (State.send (placed s f .ready) [[.count .framesForeign]])))

/-- R174, R175: a valid ENUMERATE frame leaves with its hop count raised by 1, held at 255, and a fresh CRC; an
UNADDRESSED part takes a next address of 1 to 250, enters RUNNING and raises the frame's next address by 1; in every
other case the next address stays and the part keeps its own. -/
def Obligations.EnumerateGivesAnAddress : Prop :=
  ∀ (s : State) (f : Frame), Arrives s f → HasRoom s → classify f = .enumerate true →
    (s.rpu.mode = .unaddressed → 1 ≤ (byteAt f 1).toNat → (byteAt f 1).toNat ≤ 250 →
      exec (.receiveEnumerate f) s = .next { s with
        rpu := { (placed s (sealed [4#8, byteAt f 1 + 1#8, byteUp (byteAt f 2)]) .ready).rpu with
          address := byteAt f 1, mode := .running } })
    ∧ (s.rpu.mode ≠ .unaddressed ∨ byteAt f 1 = 0#8 ∨ 251 ≤ (byteAt f 1).toNat →
      exec (.receiveEnumerate f) s = .next (placed s (sealed [4#8, byteAt f 1, byteUp (byteAt f 2)]) .ready))

/-! ### Chapter 6: intake -/

/-- R126 test 4, R125, R132: a unicast command that is no duplicate and finds a queue place and a reply place joins
the queue's tail with a reservation and is counted; a tag other than 0 makes its source's retry entry the most recent
one, IN_PROGRESS with this tag; tag 0 leaves the retry table as it is.
R5, R124, R129, Table 1-3: the entry a COMMAND frame makes, field by field: a field of a malformed frame is absent
unless all its bytes lie before the CRC, an absent tag and an absent code are answered as 0, and a malformed frame
gives no argument words. -/
def Obligations.UnicastCommandIsAccepted : Prop :=
  (∀ (s : State) (f : Frame) (valid : Bool) (e : CommandEntry),
    Arrives s f → classify f = .command valid → ToPart s f → f.length ≠ 6 → e = entryOf f valid .unicast →
    s.cp.queue.length < 4 → s.iq.replies.length + s.iq.reserved < 6 →
    (e.tagValue = 0#16 → exec (.receiveCommand f) s = .next (State.send { s with
      rpu := { s.rpu with receiving := none }
      cp := { s.cp with queue := s.cp.queue ++ [e] }
      iq := { s.iq with reserved := s.iq.reserved + 1 } } [[.count .commandsAccepted]]))
    ∧ (e.tagValue ≠ 0#16 → (∀ r, r ∈ s.cp.retry → r.source = e.source → r.tag ≠ e.tagValue) →
      ∃ kept, exec (.receiveCommand f) s = .next (State.send { s with
          rpu := { s.rpu with receiving := none }
          cp := { s.cp with
            queue := s.cp.queue ++ [e]
            retry := kept }
          iq := { s.iq with reserved := s.iq.reserved + 1 } } [[.count .commandsAccepted]])
        ∧ ((∃ r, r ∈ s.cp.retry ∧ r.source = e.source) → kept = s.cp.retry.filter (fun r => r.source != e.source)
            ++ [{ source := e.source, tag := e.tagValue, cached := none }])
        ∧ ((∀ r, r ∈ s.cp.retry → r.source ≠ e.source) → s.cp.retry.length < 4 →
            kept = s.cp.retry ++ [{ source := e.source, tag := e.tagValue, cached := none }])
        ∧ (∀ before r after, (∀ x, x ∈ s.cp.retry → x.source ≠ e.source) → 4 ≤ s.cp.retry.length →
            s.cp.retry = before ++ r :: after → (∀ x, x ∈ before → x.cached = none) → r.cached ≠ none →
            kept = before ++ after ++ [{ source := e.source, tag := e.tagValue, cached := none }])))
  ∧ (∀ (f : Frame) (valid : Bool) (origin : Origin) (e : CommandEntry), 7 ≤ f.length → e = entryOf f valid origin →
    e.destination = byteAt f 1 ∧ e.source = byteAt f 2 ∧ e.origin = origin ∧ (e.malformed = true ↔ valid = false)
    ∧ (f.length < 9 → e.tag = none ∧ e.tagValue = 0#16)
    ∧ (9 ≤ f.length → e.tag = some (byteAt f 3 ++ byteAt f 4) ∧ e.tagValue = byteAt f 3 ++ byteAt f 4)
    ∧ (f.length < 10 → e.code = none ∧ e.codeValue = 0#8)
    ∧ (10 ≤ f.length → e.code = some (byteAt f 5) ∧ e.codeValue = byteAt f 5)
    ∧ (f.length < 11 → e.argCount = none) ∧ (11 ≤ f.length → e.argCount = some (byteAt f 6))
    ∧ (valid = false → e.args = [])
    ∧ (valid = true → e.args.length = (byteAt f 6).toNat ∧ ∀ j, j < (byteAt f 6).toNat → e.args[j]?
        = some (byteAt f (7 + 4 * j) ++ byteAt f (8 + 4 * j) ++ byteAt f (9 + 4 * j) ++ byteAt f (10 + 4 * j))))

/-- R127: a duplicate of a command IN_PROGRESS is dropped; one of a DONE entry is answered with the cached reply byte
for byte when the IQ has a place, with the lifetime setting, and dropped otherwise.
R128, R129: a unicast command that is no duplicate and finds no queue place or no reply place is discarded,
counted, and reported with its source address and command code; a malformed one of exactly 6 bytes is discarded at
once with subject and detail 0. -/
def Obligations.DuplicatesAndDiscardsAreCounted : Prop :=
  (∀ (s : State) (f : Frame) (valid : Bool) (e : CommandEntry) (before after : List RetryEntry) (r : RetryEntry),
    Arrives s f → classify f = .command valid → ToPart s f → f.length ≠ 6 → e = entryOf f valid .unicast →
    e.tagValue ≠ 0#16 → s.cp.retry = before ++ r :: after → r.source = e.source → r.tag = e.tagValue →
    (∀ x, x ∈ before → x.source ≠ e.source) →
    (r.cached = none → exec (.receiveCommand f) s
      = .next (State.send { s with rpu := { s.rpu with receiving := none } } [[.count .duplicatesDropped]]))
    ∧ (∀ reply, r.cached = some reply → s.iq.replies.length + s.iq.reserved < 6 →
      exec (.receiveCommand f) s = .next (State.send { s with
        rpu := { s.rpu with receiving := none }
        iq := { s.iq with replies := s.iq.replies ++ [{ frame := reply, remaining := s.iq.lifetime.toNat }] } }
        [[.count .duplicatesAnswered]]))
    ∧ (∀ reply, r.cached = some reply → 6 ≤ s.iq.replies.length + s.iq.reserved → exec (.receiveCommand f) s
      = .next (State.send { s with rpu := { s.rpu with receiving := none } } [[.count .duplicatesDropped]])))
  ∧ (∀ (s : State) (f : Frame) (valid : Bool) (e : CommandEntry),
    Arrives s f → classify f = .command valid → ToPart s f → e = entryOf f valid .unicast →
    (f.length = 6 → exec (.receiveCommand f) s = .next (State.send { s with rpu := { s.rpu with receiving := none } }
      [[.count .commandsDiscarded, .fault { code := .commandDiscarded, subject := 0#8, detail := 0#16 }]]))
    ∧ (f.length ≠ 6 → (e.tagValue = 0#16 ∨ ∀ r, r ∈ s.cp.retry → r.source = e.source → r.tag ≠ e.tagValue) →
      4 ≤ s.cp.queue.length ∨ 6 ≤ s.iq.replies.length + s.iq.reserved →
      exec (.receiveCommand f) s = .next (State.send { s with rpu := { s.rpu with receiving := none } }
        [[.count .commandsDiscarded, .fault { code := .commandDiscarded, subject := byteAt f 2
                                              detail := BitVec.ofNat 16 (e.code.getD 0#8).toNat }]])))

/-- R26, R130: a valid broadcast is forwarded; COMMIT, CANCEL_COMMIT and RESET with the one argument TABLES join the
command queue without a reservation and are counted, or are discarded by a full queue; every other broadcast is
ignored and counted. A command for another station is forwarded and nothing else happens. -/
def Obligations.BroadcastIsForwardedAndOffered : Prop :=
  ∀ (s : State) (f : Frame) (e : CommandEntry), Arrives s f → HasRoom s → ¬ ToPart s f →
    e = entryOf f true .broadcast →
    (classify f = .command true → byteAt f 1 = 255#8 →
      (byteAt f 5 = 0x20#8 ∨ byteAt f 5 = 0x21#8 ∨ (byteAt f 5 = 0x54#8 ∧ e.args = [0#32]) →
        (s.cp.queue.length < 4 → exec (.receiveCommand f) s = .next (State.send { placed s f .ready with
          cp := { s.cp with queue := s.cp.queue ++ [e] } } [[.count .commandsAccepted]]))
        ∧ (4 ≤ s.cp.queue.length → exec (.receiveCommand f) s = .next (State.send (placed s f .ready)
          [[.count .commandsDiscarded, .fault { code := .commandDiscarded, subject := byteAt f 2
                                                detail := BitVec.ofNat 16 (byteAt f 5).toNat }]])))
      ∧ (byteAt f 5 ≠ 0x20#8 ∧ byteAt f 5 ≠ 0x21#8 ∧ ¬ (byteAt f 5 = 0x54#8 ∧ e.args = [0#32]) →
        exec (.receiveCommand f) s = .next (State.send (placed s f .ready) [[.count .broadcastsIgnored]])))
    ∧ (∀ v, classify f = .command v → v = false ∨ byteAt f 1 ≠ 255#8 →
      exec (.receiveCommand f) s = .next (placed s f .ready))

/-- R133: at completion the retry entry of the command's source that carries its tag and is IN_PROGRESS becomes DONE
and caches the reply, unless the tag is 0 or a later tagged unicast command of the source is queued (log entry 15);
every other entry stays, and so does the order. -/
def Obligations.CompletionCachesReply : Prop :=
  ∀ (table : List RetryEntry) (e : CommandEntry) (behind : List CommandEntry) (reply : Frame),
    (cacheReply table e behind reply).length = table.length
    ∧ ∀ (k : Nat) (r : RetryEntry), table[k]? = some r →
      (cacheReply table e behind reply)[k]? = some (
        if (e.tag.getD 0#16 ≠ 0#16 ∧ r.source = e.source ∧ r.tag = e.tag.getD 0#16 ∧ r.cached = none)
            ∧ (∀ o, o ∈ behind → o.origin = .unicast → o.source = e.source → o.tag.getD 0#16 = 0#16) then
          { r with cached := some reply }
        else r)

/-- R135, R13, R148 to R171: the general refusals, in their order, complete the command with the status they name, and
the state changes in nothing else: a malformed frame, an unknown code, an argument count Table 7-1 does not give, and
the first argument word outside its range, whose index the reply carries. When all this is in order none applies. The
rows of both levels of RESET take a refused one (log entry 13). -/
def Obligations.GeneralRefusalsComeFirst : Prop :=
  ∀ (s : State) (e : CommandEntry) (rest : List CommandEntry) (row : Instr),
    Begins s e rest → row ∈ rowOf (e.code.getD 0#8) →
    (e.malformed = true → exec row s = .next (finished s e rest .malformed []))
    ∧ (e.malformed = false → row = .unknownCommand → exec row s = .next (finished s e rest .unknownCommand []))
    ∧ (e.malformed = false → row ≠ .unknownCommand → e.args.length ∉ countsOf (e.code.getD 0#8) →
      exec row s = .next (finished s e rest .malformed []))
    ∧ (∀ j, e.malformed = false → row ≠ .unknownCommand → e.args.length ∈ countsOf (e.code.getD 0#8) →
      ¬ InRange (e.code.getD 0#8) e.args j → (∀ k, k < j → InRange (e.code.getD 0#8) e.args k) →
      exec row s = .next (finished s e rest .badArgument [BitVec.ofNat 32 j]))
    ∧ (e.malformed = false → row ≠ .unknownCommand → e.args.length ∈ countsOf (e.code.getD 0#8) →
      (∀ j, InRange (e.code.getD 0#8) e.args j) → e.refusal = none)

/-! ### Chapter 2: output and expiry -/

/-- R31, R37: with OUT UP the IDLE arbiter begins sending a ready head; with the forward queue empty and the hold
counter 0 it takes the head reply, which leaves the reply queue at once. Where these do not hold it begins nothing.
R32, R33: a forwarded frame that has left OUT leaves the forward queue and is counted; a reply that has left OUT
is counted; the arbiter returns to IDLE. While OUT is DOWN the IDLE arbiter discards a ready head and counts it. -/
def Obligations.ArbiterSendsAndCounts : Prop :=
  (∀ s : State, s.resetHeld = false →
    (∀ f l, s.rpu.arbiter = .idle → s.rpu.linkOut = .up → s.rpu.forward = { frame := f, state := .ready } :: l →
      exec .sendForwardBegin s = .next { s with rpu := { s.rpu with arbiter := .sendingForward } })
    ∧ (∀ r l, s.rpu.arbiter = .idle → s.rpu.linkOut = .up → s.rpu.forward = [] → s.iq.hold = 0#8 →
      s.iq.replies = r :: l → exec .sendReplyBegin s = .next { s with
        rpu := { s.rpu with arbiter := .sendingReply r.frame }
        iq := { s.iq with replies := l } })
    ∧ (s.rpu.arbiter ≠ .idle ∨ s.rpu.linkOut = .down ∨ s.rpu.forward ≠ [] ∨ s.iq.hold ≠ 0#8 ∨ s.iq.replies = [] →
      exec .sendReplyBegin s = .next s)
    ∧ (s.rpu.arbiter ≠ .idle ∨ s.rpu.linkOut = .down ∨ s.rpu.readyHead = none →
      exec .sendForwardBegin s = .next s))
  ∧ (∀ s : State, s.resetHeld = false →
    (s.rpu.arbiter = .sendingForward → exec .frameForwarded s = .next (State.send
      { s with rpu := { s.rpu with arbiter := .idle, forward := s.rpu.forward.tail } } [[.count .framesForwarded]]))
    ∧ (∀ f, s.rpu.arbiter = .sendingReply f → exec .replySent s = .next (State.send
      { s with rpu := { s.rpu with arbiter := .idle } } [[.count .repliesSent]]))
    ∧ (∀ f l, s.rpu.arbiter = .idle → s.rpu.linkOut = .down →
      s.rpu.forward = { frame := f, state := .ready } :: l →
      exec .outDiscard s = .next (State.send { s with rpu := { s.rpu with forward := l } } [[.count .outDiscards]])))

/-- R38: the reply whose lifetime runs out leaves the reply queue, is counted, and is reported with its destination
and command code; what its lifetime still showed has passed for the replies before and behind it (log entry 9). -/
def Obligations.ExpiredReplyIsRemovedAndReported : Prop :=
  ∀ (s : State) (before after : List ReplyEntry) (r : ReplyEntry), s.resetHeld = false →
    s.iq.replies = before ++ r :: after →
    exec (.replyExpired before.length) s = .next (State.send { s with
      iq := { s.iq with
        replies := (before ++ after).map (fun x => { x with remaining := x.remaining - r.remaining }) } }
      [[.count .repliesExpired, .fault { code := .replyExpired, subject := byteAt r.frame 1
                                         detail := BitVec.ofNat 16 (byteAt r.frame 5).toNat }]])

/-! ### Chapter 7: reads -/

/-- R146: IDENTIFY returns the nine fixed words, in every state in which the CP begins it. -/
def Obligations.IdentifyReturnsFixedWords : Prop :=
  ∀ (s : State) (e : CommandEntry) (rest : List CommandEntry), Begins s e rest → Carries e 0x01#8 [] →
    exec .identify s = .next (finished s e rest .ok
      [0x00000D4B#32, 0x00001632#32, 1#32, 16#32, 32#32, 256#32, 16#32, 4#32, 6#32])

/-- R147: the fourteen words of READ_STATUS, once the MU has taken what it takes before (log entry 20). -/
def Obligations.ReadStatusReturnsTheState : Prop :=
  ∀ (s : State) (e : CommandEntry) (rest : List CommandEntry) (mode : Word) (target : Half),
    Begins s e rest → Carries e 0x02#8 [] →
    (s.se.commit = .none → mode = 0#32 ∧ target = 0#16) →
    (∀ o, s.se.commit = .validating o ∨ s.se.commit = .pending o →
      mode = (if o.mode = .atCycle then 1#32 else 0#32) ∧ target = o.target) →
    exec .readStatus s = .next (finished s.deliver e rest .ok
      [s.deliver.statusWord, numWord s.se.generation.toNat,
        (match s.se.commit with
          | .none => 0#32
          | .validating _ => 1#32
          | .pending _ => 2#32),
        mode, numWord target.toNat, numWord (rest.length + 1), numWord s.iq.replies.length, numWord s.iq.reserved,
        numWord s.iq.hold.toNat, (if s.rpu.linkIn = .up then 1#32 else 0#32),
        (if s.rpu.linkOut = .up then 1#32 else 0#32), numWord (s.rpu.lastCycle.getD 0#16).toNat,
        (if s.rpu.lastCycle = none then 0#32 else 1#32), numWord s.iq.lifetime.toNat])

/-- R158, R67: the fourteen words of READ_AXIS, from the ACTIVE bank.
R159, R94: the fourteen words of READ_TRACK, from the bank named by role.
R160, R77, R161: READ_WINDOWS returns the windows from the start, as many as asked and held, or BAD_ARGUMENT with
index 2 beyond the list's end; READ_POOL returns its six words. -/
def Obligations.ReadsReturnTablesAndRecords : Prop :=
  (∀ (s : State) (e : CommandEntry) (rest : List CommandEntry) (i : Fin 16) (r : AxisRecord),
    Begins s e rest → Carries e 0x30#8 [numWord i.val] → r = s.se.axisRecords[i] →
    exec .readAxis s = .next (finished s e rest .ok
      ((match s.se.active.axes[i] with
        | none => [0#32, 0#32, 0#32, 0#32, 0#32, 0#32]
        | some d => [1#32, numWord d.source.toNat, (if d.kind = .rotary then 1#32 else 0#32), numWord d.modulus,
            numWord d.stale.toNat, numWord d.maxStep])
      ++ [(match r.state with
          | .unbound => 0#32
          | .waiting => 1#32
          | .acquiring => 2#32
          | .tracking => 3#32
          | .coasting => 4#32
          | .lost => 5#32),
        BitVec.ofInt 32 r.position, BitVec.ofInt 32 r.velocity,
        (match r.direction with
          | .unknown => 0#32
          | .forward => 1#32
          | .reverse => 2#32),
        numWord r.missed.toNat, numWord (r.lastGood.getD 0#16).toNat, (if r.lastGood = none then 0#32 else 1#32),
        numWord s.se.generation.toNat])))
  ∧ (∀ (s : State) (e : CommandEntry) (rest : List CommandEntry) (t : Fin 32) (staged : Bool) (b : Bank),
    Begins s e rest → Carries e 0x31#8 [numWord t.val, if staged then 1#32 else 0#32] →
    b = (if staged then s.se.staged else s.se.active) →
    exec .readTrack s = .next (finished s e rest .ok
      ((match b.tracks[t] with
        | none => [0#32, 0#32, 0#32, 0#32, 0#32, 0#32, 0#32, 0#32, 0#32, 0#32]
        | some d => [1#32, (if d.enabled then 1#32 else 0#32), numWord d.axis.val, numWord d.slot.toNat,
            numWord d.bit.val, (if d.polarity = .inverted then 1#32 else 0#32),
            (match d.qualifier with
              | .any => 0#32
              | .forward => 1#32
              | .reverse => 2#32),
            numWord d.lead.val,
            (match d.failAction with
              | .forceOff => 0#32
              | .forceOn => 1#32
              | .hold => 2#32),
            numWord d.stretch.toNat])
      ++ [numWord b.lists[t].length, (if s.se.trackRecords[t].output then 1#32 else 0#32),
        numWord s.se.trackRecords[t].stretchCounter.toNat, numWord s.se.generation.toNat])))
  ∧ ((∀ (s : State) (e : CommandEntry) (rest : List CommandEntry) (t : Fin 32) (staged : Bool) (start count : Nat)
      (l : List Window),
    Begins s e rest → start ≤ 16 → 1 ≤ count → count ≤ 16 →
    Carries e 0x32#8 [numWord t.val, if staged then 1#32 else 0#32, numWord start, numWord count] →
    l = (if staged then s.se.staged else s.se.active).lists[t] →
    (start ≤ l.length → exec .readWindows s = .next (finished s e rest .ok
      (((l.drop start).take count).flatMap (fun w => [w.on, w.off]))))
    ∧ (l.length < start → exec .readWindows s = .next (finished s e rest .badArgument [2#32])))
  ∧ (∀ (s : State) (e : CommandEntry) (rest : List CommandEntry), Begins s e rest → Carries e 0x33#8 [] →
    exec .readPool s = .next (finished s e rest .ok
      [numWord s.se.active.free, numWord s.se.staged.free,
        (match s.se.active.statusSlot with
          | none => 256#32
          | some id => numWord id.toNat),
        (match s.se.staged.statusSlot with
          | none => 256#32
          | some id => numWord id.toNat),
        (if s.se.selector = .b then 1#32 else 0#32), numWord s.se.generation.toNat])))

/-! ### Chapter 9 -/

/-- R189: a fault report becomes the record when the record is empty, with the last cycle seen or 0, and else raises
only the further count, held at 255; latch FAULT is set either way; counters, other latches and the mask stay.
R192: an increment raises its own counter by 1, held at 65535, and changes nothing else of the MU.
R195: a latch report sets its own latch and changes nothing else of the MU.
R190, R193: what a block sends stands behind what is on its way; the MU takes each notice once, with the last cycle
seen at the taking. When, and in which order, it takes them is the model's `lag` (log entry 20): an entry that is the
position of a notice takes that one, any other entry ends the taking, and with no entry left all are taken in an order
left open (log entry 4). A read sees what has been taken; where it sees one notice of an event without another, the
next read sees both.
R126, R130, R192: `acceptedBefore` takes the increments of accepted commands that are on their way but for at most the
`behind` last ones, and nothing else; READ_COUNTERS and RESET ALL have it done (O27, O39). -/
def Obligations.MonitorTakesReportsAndCounts : Prop :=
  (∀ (m : Mu) (cycle : Option Half) (r : Report),
    (m.report cycle r).latches = { m.latches with fault := true }
    ∧ (m.report cycle r).counters = m.counters ∧ (m.report cycle r).mask = m.mask
    ∧ (m.fault = none → (m.report cycle r).fault = some { report := r, cycle := cycle.getD 0#16, further := 0#8 })
    ∧ (∀ x, m.fault = some x → ∃ y, (m.report cycle r).fault = some y ∧ y.report = x.report ∧ y.cycle = x.cycle
        ∧ y.further.toNat = min (x.further.toNat + 1) 255))
  ∧ (∀ (m : Mu) (c : Counter),
    (∀ i : Fin 16, (m.count c).counters[i].toNat
      = if i = c.index then min (m.counters[i].toNat + 1) 65535 else m.counters[i].toNat)
    ∧ (m.count c).fault = m.fault ∧ (m.count c).latches = m.latches ∧ (m.count c).mask = m.mask)
  ∧ (∀ m : Mu,
    m.latch .axisLost = { m with latches := { m.latches with axisLost := true } }
    ∧ m.latch .commitDone = { m with latches := { m.latches with commitDone := true } }
    ∧ m.latch .linkChange = { m with latches := { m.latches with linkChange := true } })
  ∧ (∀ (m : Mu) (cycle : Option Half), (∀ r, m.take cycle (.fault r) = m.report cycle r)
    ∧ (∀ c, m.take cycle (.count c) = m.count c) ∧ (∀ c, m.take cycle (.latch c) = m.latch c))
  ∧ (∀ (s : State) (l : List (List Notice)), s.send l
    = State.deliver { s with onWay := s.onWay ++ l.map (fun n => { notices := n, stage := .whole }) })
  ∧ (∀ s : State,
    (s.resetHeld = true ∨ s.onWay = [] → s.deliver = s)
    ∧ (s.resetHeld = false → s.lag = [] → ∃ (order : List Notice) (n : Nat),
      order.Perm (s.onWay.flatMap Event.notices)
      ∧ s.deliver = { s with
        mu := order.foldl (fun m x => m.take s.rpu.lastCycle x) s.mu, onWay := [], choices := n })
    ∧ (∀ n rest, s.resetHeld = false → s.onWay ≠ [] → s.lag = n :: rest →
      ((s.onWay.flatMap Event.notices).length ≤ n → s.deliver = { s with lag := rest })
      ∧ (∀ before e after l x r, s.onWay = before ++ e :: after → e.notices = l ++ x :: r →
        n = (before.flatMap Event.notices).length + l.length →
        s.deliver = State.deliver { s with
          mu := s.mu.take s.rpu.lastCycle x
          onWay := before ++ (if l ++ r = [] then []
            else [{ notices := l ++ r, stage := if e.stage = .overdue then .overdue else .split }]) ++ after
          lag := rest })))
  ∧ (∀ s : State, ∃ (order : List Notice) (n : Nat),
    order.Perm ((s.deliver.onWay.filter (fun e => decide (e.stage = .overdue))).flatMap Event.notices)
    ∧ s.atRead = { s.deliver with
      mu := order.foldl (fun m x => m.take s.rpu.lastCycle x) s.deliver.mu
      onWay := (s.deliver.onWay.filter (fun e => decide (e.stage ≠ .overdue))).map
        (fun e => if e.stage = .split then { e with stage := .overdue } else e)
      choices := n })
  ∧ (∀ (s : State) (behind : Nat), ∃ mu onWay, s.acceptedBefore behind = { s with mu := mu, onWay := onWay }
    ∧ onWay.Sublist s.onWay
    ∧ onWay.filter (fun e => decide (e.notices ≠ [.count .commandsAccepted]))
      = s.onWay.filter (fun e => decide (e.notices ≠ [.count .commandsAccepted]))
    ∧ acceptances onWay = min behind (acceptances s.onWay)
    ∧ mu = { s.mu with counters := mu.counters }
    ∧ ∀ i : Fin 16, mu.counters[i].toNat =
      if i = Counter.commandsAccepted.index then
        min (s.mu.counters[i].toNat + (acceptances s.onWay - behind)) 65535
      else s.mu.counters[i].toNat)

/-- R162, R163, R191: READ_FAULT returns the record and changes nothing; CLEAR_FAULT returns it and empties it, and
leaves latch FAULT and the counters.
R164, R194: READ_COUNTERS returns the sixteen counters in order, COMMANDS_ACCEPTED with the increment of the
READ_COUNTERS itself, since at most those of the commands behind it are still on their way; with the clear flag yes all
sixteen become 0.
R165, R166, R196, R197: SET_ATTENTION_MASK replaces the four enables and nothing else; ACK_ATTENTION returns the
four latches as they stood and clears those marked yes and nothing else.
Each finds the MU after what it has taken by then (R193; `MonitorTakesReportsAndCounts` says what, log entry 20). -/
def Obligations.MonitorCommandsReadAndClear : Prop :=
  (∀ (s : State) (e : CommandEntry) (rest : List CommandEntry) (u : State) (words : List Word), Begins s e rest →
    u = s.atRead →
    (u.mu.fault = none → words = [0#32, 0#32, 0#32, 0#32, 0#32, 0#32]) →
    (∀ x, u.mu.fault = some x → words = [1#32,
      (match x.report.code with
        | .sampleRange => 0x01#32
        | .slotType => 0x02#32
        | .implausibleStep => 0x03#32
        | .axisLost => 0x04#32
        | .actionSlotMissing => 0x05#32
        | .forwardDrop => 0x06#32
        | .commandDiscarded => 0x07#32
        | .replyExpired => 0x08#32
        | .broadcastCommitFailed => 0x09#32
        | .commitTooLate => 0x0A#32
        | .linkDown => 0x0B#32),
      numWord x.report.subject.toNat, numWord x.report.detail.toNat, numWord x.cycle.toNat,
      numWord x.further.toNat]) →
    (Carries e 0x40#8 [] → exec .readFault s = .next (finished u e rest .ok words))
    ∧ (Carries e 0x41#8 [] → exec .clearFault s = .next
        (finished { u with mu := { u.mu with fault := none } } e rest .ok words)))
  ∧ (∀ (c : Counter) (k : Nat), counterOrder[k]? = some c → c.index.val = k)
  ∧ (∀ (s : State) (e : CommandEntry) (rest : List CommandEntry) (u : State), Begins s e rest →
    u = s.atRead.acceptedBefore rest.length →
    (Carries e 0x42#8 [0#32] → exec .readCounters s = .next
      (finished u e rest .ok (counterOrder.map (fun c => numWord u.mu.counters[c.index].toNat))))
    ∧ (Carries e 0x42#8 [1#32] → ∃ t, exec .readCounters s = .next
        (finished t e rest .ok (counterOrder.map (fun c => numWord u.mu.counters[c.index].toNat)))
      ∧ (∀ c : Counter, t.mu.counters[c.index] = 0#16)
      ∧ t = { u with mu := { u.mu with counters := t.mu.counters } }))
  ∧ (∀ (s : State) (e : CommandEntry) (rest : List CommandEntry) (a b c d : Bool) (u : State), Begins s e rest →
    u = s.deliver →
    (Carries e 0x43#8 [flagWord a, flagWord b, flagWord c, flagWord d] →
      exec .setAttentionMask s = .next (finished
        { s with mu := { s.mu with mask := { fault := a, axisLost := b, commitDone := c, linkChange := d } } }
        e rest .ok []))
    ∧ (Carries e 0x44#8 [flagWord a, flagWord b, flagWord c, flagWord d] →
      exec .ackAttention s = .next (finished
        { u with mu := { u.mu with latches := {
          fault := if a then false else u.mu.latches.fault
          axisLost := if b then false else u.mu.latches.axisLost
          commitDone := if c then false else u.mu.latches.commitDone
          linkChange := if d then false else u.mu.latches.linkChange } } }
        e rest .ok
        [if u.mu.latches.fault then 1#32 else 0#32, if u.mu.latches.axisLost then 1#32 else 0#32,
          if u.mu.latches.commitDone then 1#32 else 0#32, if u.mu.latches.linkChange then 1#32 else 0#32])))

/-! ### Chapter 5: edits of the STAGED bank -/

/-- R98: while the commit state is VALIDATING or PENDING each of the eight edit commands that passes the general
refusals is answered STAGE_LOCKED and changes nothing. -/
def Obligations.EditLockRefusesEveryEdit : Prop :=
  ∀ (s : State) (e : CommandEntry) (rest : List CommandEntry) (code : Byte) (row : Instr),
    Begins s e rest → (code, row) ∈ editRows → e.code = some code → e.refusal = none → s.se.commit ≠ .none →
    exec row s = .next (finished s e rest .stageLocked [])

/-- R45, R148, R149: DEFINE_AXIS writes the whole definition at its index of the STAGED bank, modulus 0 when LINEAR;
CLEAR_AXIS makes it absent; nothing else of either bank changes.
R91, R153: DEFINE_STATUS_SLOT sets the STAGED bank's status slot definition; 256 is none. -/
def Obligations.AxisAndStatusDefinitionsAreWrittenStaged : Prop :=
  (∀ (s : State) (e : CommandEntry) (rest : List CommandEntry) (i : Fin 16) (source stale : Byte) (rotary : Bool)
      (modulus : Word) (maxStep : Nat),
    Begins s e rest → s.se.commit = .none →
    (1 ≤ stale.toNat → 1 ≤ maxStep → maxStep ≤ 1073741824 →
      (rotary = true → 2 ≤ modulus.toNat ∧ modulus.toNat ≤ 2147483648) →
      Carries e 0x10#8 [numWord i.val, numWord source.toNat, if rotary then 1#32 else 0#32, modulus,
        numWord stale.toNat, numWord maxStep] →
      exec .defineAxis s = .next (finished { s with se := s.se.withStaged { s.se.staged with
          axes := s.se.staged.axes.set i.val (some {
            source := source, kind := if rotary then .rotary else .linear
            modulus := if rotary then modulus.toNat else 0, stale := stale, maxStep := maxStep }) } }
        e rest .ok []))
    ∧ (Carries e 0x11#8 [numWord i.val] →
      exec .clearAxis s = .next (finished { s with se := s.se.withStaged { s.se.staged with
          axes := s.se.staged.axes.set i.val none } } e rest .ok [])))
  ∧ (∀ (s : State) (e : CommandEntry) (rest : List CommandEntry) (slot : Option Byte),
    Begins s e rest → s.se.commit = .none →
    Carries e 0x17#8 [match slot with
      | none => 256#32
      | some id => numWord id.toNat] →
    exec .defineStatusSlot s = .next
      (finished { s with se := s.se.withStaged { s.se.staged with statusSlot := slot } } e rest .ok []))

/-- R70, R76, R150, R151: DEFINE_TRACK writes the whole definition and keeps the window list; CLEAR_TRACK makes it
absent, empties the list, returns its entries to the pool and answers the new free count. -/
def Obligations.TrackDefinitionIsWrittenStaged : Prop :=
  ∀ (s : State) (e : CommandEntry) (rest : List CommandEntry) (t : Fin 32) (d : TrackDef),
    Begins s e rest → s.se.commit = .none →
    (Carries e 0x12#8 [numWord t.val, flagWord d.enabled, numWord d.axis.val, numWord d.slot.toNat, numWord d.bit.val,
        (if d.polarity = .inverted then 1#32 else 0#32),
        (match d.qualifier with
          | .any => 0#32
          | .forward => 1#32
          | .reverse => 2#32),
        numWord d.lead.val,
        (match d.failAction with
          | .forceOff => 0#32
          | .forceOn => 1#32
          | .hold => 2#32),
        numWord d.stretch.toNat] →
      exec .defineTrack s = .next (finished { s with se := s.se.withStaged { s.se.staged with
        tracks := s.se.staged.tracks.set t.val (some d) } } e rest .ok []))
    ∧ (Carries e 0x13#8 [numWord t.val] →
      exec .clearTrack s = .next (finished { s with se := s.se.withStaged { s.se.staged with
        tracks := s.se.staged.tracks.set t.val none
        lists := s.se.staged.lists.set t.val []
        free := s.se.staged.free + s.se.staged.lists[t].length } } e rest .ok
        [numWord (s.se.staged.free + s.se.staged.lists[t].length)]))

/-- R73 to R75, R152: the tests of LOAD_WINDOWS in their order, and the list it makes: window by window, its length,
and the free count. -/
def Obligations.WindowsAreLoadedWholeOrNotAtAll : Prop :=
  ∀ (s : State) (e : CommandEntry) (rest : List CommandEntry) (t : Fin 32) (start : Nat) (truncate : Bool)
      (load : List Window) (old : List Window) (len : Nat),
    Begins s e rest → s.se.commit = .none → start ≤ 16 → 1 ≤ load.length → load.length ≤ 16 →
    Carries e 0x14#8 ([numWord t.val, numWord start, flagWord truncate, numWord load.length]
      ++ load.flatMap (fun w => [w.on, w.off])) →
    old = s.se.staged.lists[t] →
    len = (if truncate then start + load.length else max old.length (start + load.length)) →
    (old.length < start ∨ 16 < len → exec .loadWindows s = .next (finished s e rest .badArgument [1#32]))
    ∧ (start ≤ old.length → len ≤ 16 → s.se.staged.free + old.length < len →
      exec .loadWindows s = .next (finished s e rest .noSpace
        [numWord (len - old.length), numWord s.se.staged.free]))
    ∧ (start ≤ old.length → len ≤ 16 → len ≤ s.se.staged.free + old.length →
      ∃ new : List Window, new.length = len
        ∧ (∀ k, k < len → new[k]? = if k < start then old[k]? else if k < start + load.length then load[k - start]?
            else old[k]?)
        ∧ exec .loadWindows s = .next (finished { s with se := s.se.withStaged { s.se.staged with
            lists := s.se.staged.lists.set t.val new
            free := s.se.staged.free + old.length - len } } e rest .ok
          [numWord len, numWord (s.se.staged.free + old.length - len)]))

/-- R99, R100, R101, R154, R155: STAGE_COPY and STAGE_CLEAR go into flight; at completion the STAGED bank holds what
the ACTIVE bank holds, or is empty, and the reply carries the generation, or nothing. -/
def Obligations.StagedOperationsStartAndComplete : Prop :=
  ∀ (s : State) (e : CommandEntry) (rest : List CommandEntry),
    (Begins s e rest → s.se.commit = .none → Carries e 0x15#8 [] → exec .stageCopy s = .next { s with
      se := { s.se with stagedOp := .copying }, cp := { s.cp with flight := .copying } })
    ∧ (Begins s e rest → s.se.commit = .none → Carries e 0x16#8 [] → exec .stageClear s = .next { s with
      se := { s.se with stagedOp := .clearing }, cp := { s.cp with flight := .clearing } })
    ∧ (Waits s e rest .copying → exec .copyComplete s = .next (finished
        { s with se := { s.se.withStaged s.se.active with stagedOp := .idle } } e rest .ok
        [numWord s.se.generation.toNat]))
    ∧ (Waits s e rest .clearing → exec .clearComplete s = .next (finished
        { s with se := { s.se.withStaged {
            axes := Vector.replicate 16 none, tracks := Vector.replicate 32 none, lists := Vector.replicate 32 []
            free := 256, statusSlot := none } with stagedOp := .idle } } e rest .ok []))

/-! ### Chapter 5: commits -/

/-- R107, R121: COMMIT's checks in their order, and the start of validation; a refused one changes nothing but that a
broadcast one whose target is not ahead is reported. -/
def Obligations.CommitIsCheckedThenValidated : Prop :=
  ∀ (s : State) (e : CommandEntry) (rest : List CommandEntry) (atCycle : Bool) (target : Half) (o : CommitOrder),
    Begins s e rest → Carries e 0x20#8 [if atCycle then 1#32 else 0#32, numWord target.toNat] →
    o = { mode := if atCycle then .atCycle else .immediate, target := target, origin := e.origin } →
    (s.rpu.mode = .bypass → exec .commit s = .next (finished s e rest .wrongMode []))
    ∧ (s.rpu.mode ≠ .bypass → s.se.commit ≠ .none ∨ s.se.stagedOp ≠ .idle →
      exec .commit s = .next (finished s e rest .stageLocked []))
    ∧ (∀ l, s.rpu.mode ≠ .bypass → s.se.commit = .none → s.se.stagedOp = .idle → atCycle = true →
      s.rpu.lastCycle = some l → strictlyAhead target l = false →
      exec .commit s = .next (finished (if e.origin = .broadcast then
          s.send [[.fault { code := .commitTooLate, subject := 0#8, detail := target }]]
        else s) e rest .tooLate []))
    ∧ (s.rpu.mode ≠ .bypass → s.se.commit = .none → s.se.stagedOp = .idle →
      (∀ l, atCycle = true → s.rpu.lastCycle = some l → strictlyAhead target l = true) →
      exec .commit s = .next { s with se := { s.se with commit := .validating o }, cp := { s.cp with
        flight := .validating } })

/-- R109, R110, R121, Table 1-10: the three outcomes of a validation: failed with the item's error code, subject and
detail, overtaken by the last cycle seen, or PENDING; the first two of a broadcast COMMIT are reported. That a target
32768 cycles from the last cycle seen counts as overtaken is R110's word, against the last sentence of R111: the model's
choice (log entry 21). -/
def Obligations.ValidationEndsTheCommit : Prop :=
  ∀ (s : State) (e : CommandEntry) (rest : List CommandEntry) (o : CommitOrder) (u : State),
    Waits s e rest .validating → s.se.commit = .validating o → u = { s with se := { s.se with commit := .none } } →
    (∀ item n, s.se.staged.validate = some item → n = errorNumber item.code →
      exec .validationComplete s = .next (finished
        (if o.origin = .broadcast then u.send [[.fault
            { code := .broadcastCommitFailed, subject := BitVec.ofNat 8 item.subject
              detail := BitVec.ofNat 16 (n * 256 + item.detail % 256) }]] else u)
        e rest .validationFailed [numWord n, numWord item.subject, numWord item.detail]))
    ∧ (∀ l, s.se.staged.validate = none → o.mode = .atCycle → s.rpu.lastCycle = some l →
      strictlyAhead o.target l = false →
      exec .validationComplete s = .next (finished
        (if o.origin = .broadcast then u.send [[.fault { code := .commitTooLate, subject := 0#8, detail := o.target }]]
          else u)
        e rest .tooLate []))
    ∧ (s.se.staged.validate = none →
      (∀ l, o.mode = .atCycle → s.rpu.lastCycle = some l → strictlyAhead o.target l = true) →
      exec .validationComplete s = .next (finished { s with se := { s.se with commit := .pending o } } e rest .ok
        [if o.mode = .atCycle then 1#32 else 0#32, numWord o.target.toNat, numWord s.se.generation.toNat]))

/-- R118, R157: CANCEL_COMMIT drops a PENDING commit of either origin and answers its mode and target; with none
pending it is answered NOTHING_PENDING and nothing changes.
R177, R120, R168, R145: BYPASS in RUNNING sets the mode and asks the SE to drop a pending commit; COMMIT_DROP drops
it, and then the reply says what was dropped. In UNADDRESSED and BYPASS it is answered WRONG_MODE and changes nothing.
Whether one COMMIT_DROP takes both requests or the first alone is the model's `pauses` (log entry 7). -/
def Obligations.CancelAndBypassDropThePendingCommit : Prop :=
  (∀ (s : State) (e : CommandEntry) (rest : List CommandEntry), Begins s e rest → Carries e 0x21#8 [] →
    (∀ o, s.se.commit = .pending o → exec .cancelCommit s = .next
      (finished { s with se := { s.se with commit := .none } } e rest .ok
        [if o.mode = .atCycle then 1#32 else 0#32, numWord o.target.toNat]))
    ∧ ((∀ o, s.se.commit ≠ .pending o) → exec .cancelCommit s = .next (finished s e rest .nothingPending [])))
  ∧ (∀ (s : State) (e : CommandEntry) (rest : List CommandEntry),
    (Begins s e rest → Carries e 0x51#8 [] → s.rpu.mode = .running → exec .bypass s = .next { s with
      rpu := { s.rpu with mode := .bypass }, cp := { s.cp with flight := .dropping } })
    ∧ (Begins s e rest → Carries e 0x51#8 [] → s.rpu.mode ≠ .running →
      exec .bypass s = .next (finished s e rest .wrongMode []))
    ∧ (∀ o, Waits s e rest .dropping → s.se.commit = .pending o →
      (s.pauses.head? = some true → exec .commitDrop s = .next { s with
        se := { s.se with commit := .none }, cp := { s.cp with flight := .dropped (some o) }
        pauses := s.pauses.tail })
      ∧ (s.pauses.head? ≠ some true → exec .commitDrop s = .next (finished
        { s with se := { s.se with commit := .none }, pauses := s.pauses.tail } e rest .ok
        [1#32, if o.mode = .atCycle then 1#32 else 0#32, numWord o.target.toNat])))
    ∧ (Waits s e rest .dropping → (∀ o, s.se.commit ≠ .pending o) →
      (s.pauses.head? = some true → exec .commitDrop s = .next { s with
        cp := { s.cp with flight := .dropped none }, pauses := s.pauses.tail })
      ∧ (s.pauses.head? ≠ some true → exec .commitDrop s = .next (finished { s with pauses := s.pauses.tail } e rest .ok
        [0#32, 0#32, 0#32])))
    ∧ (∀ o, Waits s e rest (.dropped (some o)) → exec .commitDrop s = .next (finished s e rest .ok
        [1#32, if o.mode = .atCycle then 1#32 else 0#32, numWord o.target.toNat]))
    ∧ (Waits s e rest (.dropped none) →
      exec .commitDrop s = .next (finished s e rest .ok [0#32, 0#32, 0#32])))

/-- R102 to R105: validation passes exactly when no condition is broken.
R102: a failing validation reports the first condition broken in the scan order: the lowest axis index with a clash,
with the lowest axis of that slot id; then the status slot, with the lowest axis of its id; then the lowest track at
fault, with the first of its conditions in the order of R104 and its detail, and then the first window in list order,
with the first of its conditions in the order of R105. -/
def Obligations.ValidationReportsTheFirstViolation : Prop :=
  (∀ b : Bank, b.validate = none ↔
    AxesSound b ∧ StatusSound b
    ∧ (∀ (t : Fin 32) (d : TrackDef), b.tracks[t] = some d → d.enabled = true → TrackSound b t d))
  ∧ (∀ (b : Bank) (item : Item), b.validate = some item →
    (∃ i j : Fin 16, item = { code := .axisSlotClash, subject := i.val, detail := j.val } ∧ j < i
      ∧ (∃ c d, b.axes[i] = some c ∧ b.axes[j] = some d ∧ c.source = d.source)
      ∧ (∀ k l : Fin 16, ∀ c d, l < k → k < i → b.axes[k] = some c → b.axes[l] = some d → c.source ≠ d.source)
      ∧ (∀ l : Fin 16, ∀ c d, l < j → b.axes[i] = some c → b.axes[l] = some d → c.source ≠ d.source))
    ∨ (∃ (id : Byte) (j : Fin 16), item = { code := .slotRoleClash, subject := id.toNat, detail := j.val }
      ∧ b.statusSlot = some id ∧ (∃ d, b.axes[j] = some d ∧ d.source = id)
      ∧ (∀ l : Fin 16, ∀ d, l < j → b.axes[l] = some d → d.source ≠ id)
      ∧ AxesSound b)
    ∨ (∃ (t : Fin 32) (d : TrackDef), item.subject = t.val ∧ b.tracks[t] = some d ∧ d.enabled = true
      ∧ TrackBreaks b t d item.code item.detail
      ∧ (∀ (u : Fin 32) (o : TrackDef), u < t → b.tracks[u] = some o → o.enabled = true → TrackSound b u o)
      ∧ AxesSound b ∧ StatusSound b))

/-! ### Chapters 7 and 8: lifetime, modes, resets -/

/-- R167, R36: SET_REPLY_LIFETIME sets the lifetime before its own reply joins, and answers the old setting.
R180, R170: RELEASE_ADDRESS answers with the old address as its source, in every mode, and then leaves the part
UNADDRESSED with address 0 and everything else as it was. Whether one RELEASE_ADDRESS takes both requests
or the first alone is the model's `pauses` (log entry 7); between its two requests the next command does not begin (log entry 8). -/
def Obligations.LifetimeIsSetAndAddressReleased : Prop :=
  (∀ (s : State) (e : CommandEntry) (rest : List CommandEntry) (ms : Byte),
    Begins s e rest → 1 ≤ ms.toNat → Carries e 0x50#8 [numWord ms.toNat] →
    exec .setReplyLifetime s = .next (finished { s with iq := { s.iq with lifetime := ms } } e rest .ok
      [numWord s.iq.lifetime.toNat]))
  ∧ (∀ (s : State) (e : CommandEntry) (rest : List CommandEntry), Begins s e rest → Carries e 0x53#8 [] →
    (s.pauses.head? = some true → exec .releaseAddress s = .next { finished s e rest .ok [] with
      cp := { (finished s e rest .ok []).cp with flight := .releasing }, pauses := s.pauses.tail })
    ∧ (s.pauses.head? ≠ some true → exec .releaseAddress s = .next { finished s e rest .ok [] with
      rpu := { s.rpu with address := 0#8, mode := .unaddressed }, pauses := s.pauses.tail }))
  ∧ (∀ s : State, s.resetHeld = false → s.cp.flight = .releasing →
    exec .releaseAddress s = .next { s with
      rpu := { s.rpu with address := 0#8, mode := .unaddressed }, cp := { s.cp with flight := .none } }
    ∧ ∀ code row, row ∈ rowOf code → row ≠ .releaseAddress → exec row s = .next s)

/-- R179, R169, R145: RESUME in BYPASS goes through its three requests in order: the records are cleared, the mode
becomes RUNNING, the reply is built. In the other modes it is answered WRONG_MODE and clears nothing. How far one
DYNAMIC_RECORD_CLEAR goes is the model's operand (log entry 7). -/
def Obligations.ResumeClearsRecordsThenRuns : Prop :=
  ∀ (s : State) (e : CommandEntry) (rest : List CommandEntry),
    (Begins s e rest → Carries e 0x52#8 [] → s.rpu.mode = .bypass →
      exec .resume s = .next { s with cp := { s.cp with flight := .resuming .records } })
    ∧ (Begins s e rest → Carries e 0x52#8 [] → s.rpu.mode ≠ .bypass →
      exec .resume s = .next (finished s e rest .wrongMode []))
    ∧ (Waits s e rest (.resuming .records) → ∃ a t,
      exec (.dynamicRecordClear .records) s = .next { s with
        se := { s.se with axisRecords := a, trackRecords := t }, cp := { s.cp with flight := .resuming .mode } }
      ∧ exec (.dynamicRecordClear .reply) s = .next (finished { s with
        se := { s.se with axisRecords := a, trackRecords := t }, rpu := { s.rpu with mode := .running } } e rest .ok [])
      ∧ (∀ i : Fin 16, a[i] = (AxisRecord.cleared (if s.se.active.axes[i] = none then .unbound else .waiting)))
      ∧ (∀ i : Fin 32, t[i] = TrackRecord.cleared))
    ∧ (Waits s e rest (.resuming .mode) → exec (.dynamicRecordClear .mode) s = .next { s with
      rpu := { s.rpu with mode := .running }, cp := { s.cp with flight := .resuming .reply } })
    ∧ (Waits s e rest (.resuming .reply) →
      exec (.dynamicRecordClear .reply) s = .next (finished s e rest .ok []))

/-- R185, R141, R123: RESET TABLES goes into flight, the SE takes its initial state and nothing else changes, and the
reply carries level 0.
R186, R139, R43: RESET ALL empties the command queue behind it with its reservations, the retry table and the
reply queue; then the SE, the IQ's settings, the RPU's last cycle seen and mode, and the MU are reset in this order;
then the reply carries level 1. The address, the links and the forwarding of frames are kept. How far one
SE_TABLE_RESET goes is the model's operand (log entry 7); what is on its way to the MU may be taken before the last
cycle seen is forgotten and before the MU is reset (R190, log entry 20).
R171: no increment of a command accepted before the MU's reset is on its way after it. -/
def Obligations.ResetsGoBlockByBlock : Prop :=
  (∀ (s : State) (e : CommandEntry) (rest : List CommandEntry),
    (Begins s e rest → Carries e 0x54#8 [0#32] → exec .resetTables s = .next { s with
      cp := { s.cp with flight := .resetting .tables .se } })
    ∧ (Waits s e rest (.resetting .tables .se) →
      exec (.seTableReset .se) s = .next { s with se := .reset, cp := { s.cp with flight := .resetting .tables .iq } }
      ∧ exec (.seTableReset .reply) s = .next (finished { s with se := .reset } e rest .ok [0#32])))
  ∧ (∀ (s : State) (e : CommandEntry) (rest : List CommandEntry),
    (Begins s e rest → Carries e 0x54#8 [1#32] → exec .resetAll s = .next { s with
      cp := { queue := [e], retry := [], flight := .resetting .all .se }
      iq := { s.iq with
        replies := []
        reserved := s.iq.reserved - (rest.filter (fun o => decide (o.origin = .unicast))).length } })
    ∧ (Waits s e rest (.resetting .all .se) →
      exec (.seTableReset .se) s = .next { s with se := .reset, cp := { s.cp with flight := .resetting .all .iq } })
    ∧ (Waits s e rest (.resetting .all .iq) → exec (.seTableReset .iq) s = .next { s with
      iq := { s.iq with lifetime := 20#8, hold := 0#8 }, cp := { s.cp with flight := .resetting .all .rpu } })
    ∧ (Waits s e rest (.resetting .all .rpu) → exec (.seTableReset .rpu) s = .next { s.deliver with
      rpu := { s.rpu with
        lastCycle := none
        mode := if s.rpu.mode = .bypass then .running else s.rpu.mode }
      cp := { s.cp with flight := .resetting .all .mu } })
    ∧ (Waits s e rest (.resetting .all .mu) → exec (.seTableReset .mu) s = .next { s.deliver with
      mu := .reset
      onWay := s.deliver.onWay.filter (fun e => decide (e.notices ≠ [.count .commandsAccepted]))
      cp := { s.cp with flight := .resetting .all .reply } })
    ∧ (Waits s e rest (.resetting .all .reply) →
      exec (.seTableReset .reply) s = .next (finished s e rest .ok [1#32]))
    ∧ (Waits s e rest (.resetting .all .se) → ∃ w l n, (s.onWay = [] → w = [] ∧ l = s.lag ∧ n = s.choices)
      ∧ acceptances w = 0
      ∧ exec (.seTableReset .reply) s = .next (finished
        { s with
          se := .reset, mu := .reset, onWay := w, lag := l, choices := n
          iq := { s.iq with lifetime := 20#8, hold := 0#8 }
          rpu := { s.rpu with
            lastCycle := none
            mode := if s.rpu.mode = .bypass then .running else s.rpu.mode } } e rest .ok [1#32])))

/-! ### Chapter 3: axes -/

/-- R50: the delta of a ROTARY axis is the shortest signed way round, a tie forward.
R51, R62, R66: the delta of a LINEAR axis is exact; a position carried forward and the effective position are
taken modulo M for ROTARY and held within 32 signed bits for LINEAR. -/
def Obligations.DeltasAndSumsFollowTheKind : Prop :=
  (∀ (d : AxisDef) (p x : Int), d.kind = .rotary → 2 ≤ d.modulus → 0 ≤ p → p < d.modulus → 0 ≤ x → x < d.modulus →
    (∃ k : Int, d.delta p x = x - p + k * d.modulus)
      ∧ -(d.modulus : Int) < 2 * d.delta p x ∧ 2 * d.delta p x ≤ d.modulus)
  ∧ (∀ (d : AxisDef) (r : AxisRecord) (lead : Fin 16),
    (d.kind = .linear →
      (∀ p x, d.delta p x = x - p)
      ∧ (∀ x, d.reduce x = max (-2147483648) (min x 2147483647))
      ∧ d.effective r lead = max (-2147483648) (min (r.position + r.velocity * (lead.val : Int)) 2147483647))
    ∧ (d.kind = .rotary → 1 ≤ d.modulus →
      (∀ x, 0 ≤ d.reduce x ∧ d.reduce x < d.modulus ∧ ∃ k : Int, d.reduce x = x + k * d.modulus)
      ∧ ∃ k : Int, 0 ≤ d.effective r lead ∧ d.effective r lead < d.modulus
        ∧ d.effective r lead = r.position + r.velocity * (lead.val : Int) + k * d.modulus))

/-- R49, R52: the sample of an axis in a valid SAMPLE frame: the three tests in order, then the step check. -/
def Obligations.SampleIsTestedInOrder : Prop :=
  ∀ (d : AxisDef) (f : Frame) (r : AxisRecord),
    (findSlot f d.source = none → d.sample f r = .absent)
    ∧ (∀ o, findSlot f d.source = some o →
      (byteAt f (o + 1) ≠ 0x01#8 → d.sample f r = .wrongType)
      ∧ (byteAt f (o + 1) = 0x01#8 → d.kind = .rotary → d.modulus ≤ (wordAt f (o + 2)).toNat →
        d.sample f r = .outOfRange)
      ∧ (∀ x : Int, byteAt f (o + 1) = 0x01#8 →
        (d.kind = .linear ∧ x = (wordAt f (o + 2)).toInt)
          ∨ (d.kind = .rotary ∧ (wordAt f (o + 2)).toNat < d.modulus ∧ x = (wordAt f (o + 2)).toNat) →
        (r.state = .acquiring ∨ r.state = .tracking ∨ r.state = .coasting →
          (d.maxStep < (d.delta r.position x).natAbs → d.sample f r = .implausible (d.delta r.position x).natAbs)
          ∧ ((d.delta r.position x).natAbs ≤ d.maxStep → d.sample f r = .good x))
        ∧ (r.state = .waiting ∨ r.state = .lost → d.sample f r = .good x)))

/-- R54 to R58: what a good sample does to a record, state by state.
R59 to R64: what a miss does to a record, state by state: of a frame, and of a lost-sample announcement. -/
def Obligations.GoodSamplesAndMissesMoveTheAxis : Prop :=
  (∀ (d : AxisDef) (f : Frame) (r : AxisRecord) (x : Int), d.sample f r = .good x →
    (r.state = .waiting ∨ r.state = .lost → d.updated f r =
      { state := .acquiring, position := x, velocity := 0, direction := .unknown, missed := 0#8
        lastGood := some (cycleOf f) })
    ∧ (r.state = .acquiring ∨ r.state = .tracking → r.lastGood = some (cycleOf f - 1#16) → d.updated f r =
      { state := .tracking, position := x, velocity := d.delta r.position x
        direction := if 0 < d.delta r.position x then .forward else if d.delta r.position x < 0 then .reverse
          else r.direction
        missed := 0#8, lastGood := some (cycleOf f) })
    ∧ (r.state = .acquiring ∨ r.state = .tracking → r.lastGood ≠ some (cycleOf f - 1#16) →
      d.updated f r = { r with position := x, missed := 0#8, lastGood := some (cycleOf f) })
    ∧ (r.state = .coasting →
      d.updated f r = { r with state := .tracking, position := x, missed := 0#8, lastGood := some (cycleOf f) }))
  ∧ (∀ (d : AxisDef) (f : Frame) (r : AxisRecord), (∀ x, d.sample f r ≠ .good x) →
    (r.state = .waiting → d.updated f r = r ∧ d.onMiss r = r)
    ∧ (r.state = .lost → d.updated f r = { r with missed := byteUp r.missed } ∧ d.onMiss r = r)
    ∧ (r.state = .acquiring ∨ r.state = .tracking ∨ r.state = .coasting → r.missed.toNat < 255 →
      d.updated f r = d.onMiss r
      ∧ (d.stale.toNat ≤ r.missed.toNat + 1 → d.onMiss r = { r with state := .lost, missed := r.missed + 1#8 })
      ∧ (r.missed.toNat + 1 < d.stale.toNat → r.state = .acquiring → d.onMiss r = { r with missed := r.missed + 1#8 })
      ∧ (r.missed.toNat + 1 < d.stale.toNat → r.state = .tracking ∨ r.state = .coasting → d.onMiss r =
        { r with state := .coasting, missed := r.missed + 1#8, position := d.reduce (r.position + r.velocity) })))

/-! ### Chapter 4: tracks -/

/-- R78, R79: what a window covers, read by the kind of the axis.
R82 to R85: a believed axis gives the track its match, level and stretched output; WAITING and LOST give its fail
action. -/
def Obligations.TrackOutputFollowsWindowsAndAxis : Prop :=
  (∀ (w : Window) (x : Int),
    (w.covers .linear x = true ↔ w.on.toInt ≤ x ∧ x < w.off.toInt)
    ∧ (w.covers .rotary x = true ↔
        (w.on.toNat < w.off.toNat ∧ (w.on.toNat : Int) ≤ x ∧ x < w.off.toNat)
        ∨ (w.off.toNat < w.on.toNat ∧ ((w.on.toNat : Int) ≤ x ∨ x < w.off.toNat))))
  ∧ (∀ (d : TrackDef) (axis : AxisDef) (ar : AxisRecord) (l : List Window) (r : TrackRecord),
    (ar.state = .acquiring ∨ ar.state = .tracking ∨ ar.state = .coasting → ∃ level : Bool,
      (level = true ↔
        (d.polarity = .normal ↔ ((∃ w, w ∈ l ∧ w.covers axis.kind (axis.effective ar d.lead) = true)
          ∧ (d.qualifier = .any ∨ (d.qualifier = .forward ∧ ar.direction = .forward)
            ∨ (d.qualifier = .reverse ∧ ar.direction = .reverse)))))
      ∧ (level = true → d.evaluated axis ar l r = { output := true, stretchCounter := d.stretch })
      ∧ (level = false → r.stretchCounter ≠ 0#8 →
          d.evaluated axis ar l r = { output := true, stretchCounter := r.stretchCounter - 1#8 })
      ∧ (level = false → r.stretchCounter = 0#8 → d.evaluated axis ar l r = { output := false, stretchCounter := 0#8 }))
    ∧ (ar.state = .waiting ∨ ar.state = .lost →
      (d.failAction = .forceOff → d.evaluated axis ar l r = { output := false, stretchCounter := 0#8 })
      ∧ (d.failAction = .forceOn → d.evaluated axis ar l r = { r with output := true })
      ∧ (d.failAction = .hold → d.evaluated axis ar l r = r)))

/-! ### SAMPLE_EVALUATION and LOST_SAMPLE as steps -/

/-- R48, R81, R93, R112, R117: the SE evaluates the next frame handed to it: swap test, axes, tracks, in this order;
the frame goes back ready in its place of the forward queue, SAMPLES_EVALUATED is sent last, and what the evaluation
does not own stays; the counters have changed at once when nothing is on its way and `lag` is empty (log entry 20). -/
def Obligations.SampleEvaluationUpdatesAxesThenTracks : Prop :=
  ∀ (s : State) (f : Frame) (handed : List Handed), Evaluates s f handed →
    ∃ t g, exec .sampleEvaluation s = .next t
      ∧ (∃ u l, t = State.sendEvents u (l ++ [{ notices := [.count .samplesEvaluated], stage := .whole }]))
      ∧ SameElsewhere s t
      ∧ t.rpu = { s.rpu with handed := handed, forward := handBack s.rpu.forward g }
      ∧ t.se.bankA = s.se.bankA ∧ t.se.bankB = s.se.bankB ∧ t.se.stagedOp = s.se.stagedOp
      ∧ t.se.selector = (swapped s.se f).selector ∧ t.se.generation = (swapped s.se f).generation
      ∧ t.se.commit = (swapped s.se f).commit
      ∧ (∀ (i : Fin 16) d, t.se.active.axes[i] = some d → (swapped s.se f).axisRecords[i].state ≠ .unbound →
          t.se.axisRecords[i] = d.updated f (swapped s.se f).axisRecords[i])
      ∧ (∀ i : Fin 16, t.se.active.axes[i] = none ∨ (swapped s.se f).axisRecords[i].state = .unbound →
          t.se.axisRecords[i] = (swapped s.se f).axisRecords[i])
      ∧ (∀ (k : Fin 32) d axis, t.se.active.tracks[k] = some d → d.enabled = true →
          t.se.active.axes[d.axis] = some axis → t.se.trackRecords[k] =
            d.evaluated axis t.se.axisRecords[d.axis] t.se.active.lists[k] (swapped s.se f).trackRecords[k])
      ∧ (∀ (k : Fin 32), (∀ d, t.se.active.tracks[k] = some d → d.enabled = false) →
          t.se.trackRecords[k] = (swapped s.se f).trackRecords[k])
      ∧ (s.onWay = [] → s.lag = [] → t.mu.counters[Counter.samplesEvaluated.index].toNat
          = min (s.mu.counters[Counter.samplesEvaluated.index].toNat + 1) 65535)
      ∧ (s.onWay = [] → ∀ c : Counter, c ≠ .samplesEvaluated → c ≠ .actionSlotsMissing →
          t.mu.counters[c.index] = s.mu.counters[c.index])
      ∧ t.mu.mask = s.mu.mask
      ∧ (s.onWay = [] → t.mu.latches.linkChange = s.mu.latches.linkChange)

/-- R15, R16, R88, R92: the frame handed back is as long as the frame received, its CRC matches it, and
before its CRC it differs at most in the values of the first slots of owned ids of type ACTION and of the status slot
of type STATUS. -/
def Obligations.EvaluatedFrameChangesOnlyOwnedSlots : Prop :=
  ∀ (s : State) (f : Frame) (handed : List Handed), Evaluates s f handed → classify f = .sample true →
    ∃ t g, exec .sampleEvaluation s = .next t ∧ t.rpu.forward = handBack s.rpu.forward g
      ∧ g.length = f.length ∧ classify g = .sample true
      ∧ ∀ k, k < f.length - 4 → byteAt g k ≠ byteAt f k →
        ∃ id o, findSlot f id = some o ∧ o + 2 ≤ k ∧ k < o + 6
          ∧ ((Owned t.se.active id ∧ byteAt f (o + 1) = 0x02#8)
            ∨ (t.se.active.statusSlot = some id ∧ byteAt f (o + 1) = 0x03#8))

/-- R87, R88, R86: in the frame handed back, in the first slot of an owned id of type ACTION, each owned bit
is the last output of its track and every other bit is as it arrived; the ACTIVE bank is one that passes validation. -/
def Obligations.OwnedBitsCarryTrackOutputs : Prop :=
  ∀ (s : State) (f : Frame) (handed : List Handed), Evaluates s f handed → classify f = .sample true →
    (swapped s.se f).active.validate = none →
    ∃ t g, exec .sampleEvaluation s = .next t ∧ t.rpu.forward = handBack s.rpu.forward g
      ∧ ∀ id o, Owned t.se.active id → findSlot f id = some o → byteAt f (o + 1) = 0x02#8 →
        (∀ (k : Fin 32) d, t.se.active.enabledTrack k = some d → d.slot = id →
          (wordAt g (o + 2)).getLsbD d.bit.val = t.se.trackRecords[k].output)
        ∧ (∀ n : Fin 32, (∀ (k : Fin 32) d, t.se.active.enabledTrack k = some d → d.slot = id → d.bit ≠ n) →
          (wordAt g (o + 2)).getLsbD n.val = (wordAt f (o + 2)).getLsbD n.val)

/-- R92, R199, R201: the status word written into the status slot of type STATUS is the one composed once the MU has
taken every fault report and latch report the frame caused: it shows the mode and address, the SE's selector,
generation and commit state after any swap, and the latches and the held flag as they then stand; what is
then on its way was so before, and only increments are sent after it. With nothing else on its way these are the latches and the held flag that the step leaves. -/
def Obligations.StatusSlotShowsThisFramesOutcome : Prop :=
  ∀ (s : State) (f : Frame) (handed : List Handed) (id : Byte) (o : Nat), Evaluates s f handed →
    classify f = .sample true → (swapped s.se f).active.validate = none →
    (swapped s.se f).active.statusSlot = some id → findSlot f id = some o → byteAt f (o + 1) = 0x03#8 →
    ∃ t g u l, exec .sampleEvaluation s = .next t ∧ t = State.sendEvents u l
      ∧ t.rpu.forward = handBack s.rpu.forward g
      ∧ wordAt g (o + 2) = u.statusWord
      ∧ (∀ e n, e ∈ l → n ∈ e.notices → ∃ c, n = .count c)
      ∧ (u.onWay.flatMap Event.notices).Sublist (s.onWay.flatMap Event.notices)
      ∧ (s.onWay = [] → wordAt g (o + 2) = t.statusWord)

/-- R89, R90, R92, R53, R63, R115, R189, R193: the evaluation tells the MU what the rules name and nothing else: the
fault reports, the latch reports, one increment of ACTION_SLOTS_MISSING for each owned id that is absent, and one of
SAMPLES_EVALUATED; in an order left open (R190, log entries 4 and 20), each taken once. While the ACTIVE bank is valid
each fault report is made once. -/
def Obligations.EvaluationReportsWhatItFound : Prop :=
  ∀ (s : State) (f : Frame) (handed : List Handed), Evaluates s f handed → classify f = .sample true →
    ∃ (t : State) (told : List Notice), exec .sampleEvaluation s = .next t ∧ Tells s t told
      ∧ (∀ r : Report, .fault r ∈ told ↔
          (∃ id, Owned t.se.active id ∧ findSlot f id = none
            ∧ r = { code := .actionSlotMissing, subject := id, detail := 0#16 })
          ∨ (∃ id o, Owned t.se.active id ∧ findSlot f id = some o ∧ byteAt f (o + 1) ≠ 0x02#8
            ∧ r = { code := .slotType, subject := id, detail := 0#16 })
          ∨ (∃ id o, t.se.active.statusSlot = some id ∧ findSlot f id = some o ∧ byteAt f (o + 1) ≠ 0x03#8
            ∧ r = { code := .slotType, subject := id, detail := 0#16 })
          ∨ (∃ (i : Fin 16) (d : AxisDef) (x : AxisRecord), t.se.active.axes[i] = some d
            ∧ x = (swapped s.se f).axisRecords[i] ∧ x.state ≠ .unbound
            ∧ ((d.sample f x = .wrongType ∧ r = { code := .slotType, subject := d.source, detail := 0#16 })
              ∨ (d.sample f x = .outOfRange
                ∧ r = { code := .sampleRange, subject := BitVec.ofNat 8 i.val, detail := 0#16 })
              ∨ (∃ m, d.sample f x = .implausible m ∧ r = { code := .implausibleStep, subject := BitVec.ofNat 8 i.val
                                                            detail := BitVec.ofNat 16 (min m 65535) })))
          ∨ (∃ i : Fin 16, r = { code := .axisLost, subject := BitVec.ofNat 8 i.val, detail := 0#16 }
            ∧ ((s.se.commit.swapDue (cycleOf f) = true
                ∧ lostAtSwap s.se.active.axes[i] s.se.staged.axes[i] s.se.axisRecords[i] = true)
              ∨ ((swapped s.se f).axisRecords[i].state ≠ .lost ∧ t.se.axisRecords[i].state = .lost))))
      ∧ (t.se.active.validate = none → (told.filterMap Notice.report?).Nodup)
      ∧ (.latch .axisLost ∈ told ↔ ∃ r, .fault r ∈ told ∧ r.code = .axisLost)
      ∧ (.latch .commitDone ∈ told ↔ s.se.commit.swapDue (cycleOf f) = true)
      ∧ .latch .linkChange ∉ told
      ∧ (∀ c : Counter, .count c ∈ told → c = .samplesEvaluated ∨ c = .actionSlotsMissing)
      ∧ told.count (.count .samplesEvaluated) = 1
      ∧ ∃ ids : List Byte, ids.Nodup ∧ (∀ id, id ∈ ids ↔ Owned t.se.active id ∧ findSlot f id = none)
        ∧ told.count (.count .actionSlotsMissing) = ids.length

/-- R48, R63, R25: the SE takes a lost-sample announcement as a miss for each axis in ACQUIRING, TRACKING or COASTING;
it makes no swap, writes no frame, evaluates no track and counts nothing. Each axis it takes into LOST, and no other,
is sent to the MU once: the fault report AXIS_LOST with the axis index and detail 0, and the latch report. When the MU
takes them at once (log entry 20) the record carries the last cycle seen, which the damaged frame did not change, and
both latches are set; with no axis lost the MU stays as it is. -/
def Obligations.LostSampleIsAMiss : Prop :=
  ∀ (s : State) (handed : List Handed), s.resetHeld = false → s.rpu.handed = .lost :: handed →
    ∃ (records : Vector AxisRecord 16) (lost : List (Fin 16)) (t : State), exec .lostSample s = .next t
      ∧ t = State.send
          { s with rpu := { s.rpu with handed := handed }, se := { s.se with axisRecords := records } }
          (lost.map (fun i =>
            [.fault { code := .axisLost, subject := BitVec.ofNat 8 i.val, detail := 0#16 }, .latch .axisLost]))
      ∧ (∀ (i : Fin 16) d, s.se.active.axes[i] = some d → records[i] = d.onMiss s.se.axisRecords[i])
      ∧ (∀ i : Fin 16, s.se.active.axes[i] = none → records[i] = s.se.axisRecords[i])
      ∧ lost.Nodup
      ∧ (∀ i : Fin 16, i ∈ lost ↔ records[i].state = .lost ∧ s.se.axisRecords[i].state ≠ .lost)
      ∧ SameElsewhere s t ∧ t.rpu = { s.rpu with handed := handed } ∧ t.se = { s.se with axisRecords := records }
      ∧ (s.onWay = [] → t.mu.counters = s.mu.counters ∧ t.mu.mask = s.mu.mask ∧ (lost = [] → t.mu = s.mu))
      ∧ (s.onWay = [] → s.lag = [] → ∃ reports : List Report,
          reports.Perm (lost.map (fun i => { code := .axisLost, subject := BitVec.ofNat 8 i.val, detail := 0#16 }))
          ∧ t.mu.fault = (reports.foldl (fun m r => Mu.report m s.rpu.lastCycle r) s.mu).fault
          ∧ (lost ≠ [] → t.mu.latches = { s.mu.latches with fault := true, axisLost := true }))

/-! ### Chapter 5: the swap -/

/-- R112, R113: a swap is due at an evaluated frame while a commit is PENDING that is IMMEDIATE or whose target the
frame's cycle has reached; it flips the selector, raises the generation, ends the commit and is reported to COMMIT_DONE; the
banks keep their contents. Without a due swap these stay.
R114 to R116: what a swap makes of the records: an axis of the same source slot id, kind and modulus keeps its
record, or enters LOST when the new stale limit is not above its missed count in ACQUIRING or COASTING; another one is
cleared, WAITING or UNBOUND; a track enabled in both with the same axis, slot and bit keeps its record. -/
def Obligations.SwapSwitchesTheRecipe : Prop :=
  (∀ (s : State) (f : Frame) (handed : List Handed), Evaluates s f handed →
    ∃ t told, exec .sampleEvaluation s = .next t ∧ Tells s t told
      ∧ t.se.bankA = s.se.bankA ∧ t.se.bankB = s.se.bankB
      ∧ (∀ o, s.se.commit = .pending o → (o.mode = .immediate ∨ atOrAfter (cycleOf f) o.target = true) →
        t.se.selector ≠ s.se.selector ∧ t.se.generation = s.se.generation + 1#16 ∧ t.se.commit = .none
          ∧ .latch .commitDone ∈ told ∧ (s.lag = [] → t.mu.latches.commitDone = true))
      ∧ ((∀ o, s.se.commit = .pending o → o.mode = .atCycle ∧ atOrAfter (cycleOf f) o.target = false) →
        t.se.selector = s.se.selector ∧ t.se.generation = s.se.generation ∧ t.se.commit = s.se.commit
          ∧ .latch .commitDone ∉ told ∧ (s.onWay = [] → t.mu.latches.commitDone = s.mu.latches.commitDone)))
  ∧ (∀ (e : Se) (i : Fin 16) (k : Fin 32),
    (∀ c d, e.active.axes[i] = some c → e.staged.axes[i] = some d → c.source = d.source → c.kind = d.kind →
      c.modulus = d.modulus → e.swap.axisRecords[i] =
        if (e.axisRecords[i].state = .acquiring ∨ e.axisRecords[i].state = .coasting)
            ∧ d.stale.toNat ≤ e.axisRecords[i].missed.toNat then { e.axisRecords[i] with state := .lost }
        else e.axisRecords[i])
    ∧ (∀ c d, e.active.axes[i] = some c → e.staged.axes[i] = some d →
      c.source ≠ d.source ∨ c.kind ≠ d.kind ∨ c.modulus ≠ d.modulus →
      e.swap.axisRecords[i] = .cleared .waiting)
    ∧ (∀ d, e.active.axes[i] = none → e.staged.axes[i] = some d → e.swap.axisRecords[i] = .cleared .waiting)
    ∧ (e.staged.axes[i] = none → e.swap.axisRecords[i] = .cleared .unbound)
    ∧ (∀ c d, e.active.tracks[k] = some c → e.staged.tracks[k] = some d → c.enabled = true → d.enabled = true →
      c.axis = d.axis → c.slot = d.slot → c.bit = d.bit → e.swap.trackRecords[k] = e.trackRecords[k])
    ∧ ((∀ c d, e.active.tracks[k] = some c → e.staged.tracks[k] = some d → c.enabled = true → d.enabled = true →
        ¬ (c.axis = d.axis ∧ c.slot = d.slot ∧ c.bit = d.bit)) → e.swap.trackRecords[k] = .cleared))

/-- R97: the ACTIVE bank's contents change only at a swap and at the resets: every other command leaves them. -/
def Obligations.ActiveBankChangesOnlyAtSwapAndReset : Prop :=
  ∀ (c : Instr) (s t : State), exec c s = .next t → c ≠ .resetPinAsserted → (∀ g, c ≠ .seTableReset g) →
    (c = .sampleEvaluation → t.se.selector = s.se.selector) →
    t.se.active = s.se.active ∧ t.se.selector = s.se.selector ∧ t.se.generation = s.se.generation

/-! ### Laws that every step keeps -/

/-- Tier 3: every step keeps the capacities of the queues, and the reservations equal to the unicast commands queued
(R29, R35, R124, R125, R131). -/
def Obligations.EveryStepKeepsTheCapacities : Prop :=
  ∀ s t : State, Safety.Capacities s → step s = .next t → Safety.Capacities t

/-- Tier 3: every step keeps the frames in evaluation equal to the frames handed over, and a frame being sent the
ready head of the forward queue (R24, R29, R31). -/
def Obligations.EveryStepKeepsForwarding : Prop :=
  ∀ s t : State, Safety.Forwarding s → step s = .next t → Safety.Forwarding t

/-- Tier 3: every step keeps the address 0 exactly in UNADDRESSED and never above 250 (R40, R172). -/
def Obligations.EveryStepKeepsAddressing : Prop :=
  ∀ s t : State, Safety.Addressing s → step s = .next t → Safety.Addressing t

/-- Tier 3: every step keeps the ACTIVE bank, and a pending STAGED bank, one that validation passes (R97), and the
command in flight, the commit state and the staged-operation state in agreement (R101, R108). -/
def Obligations.EveryStepKeepsTheActiveBankValid : Prop :=
  ∀ s t : State, Safety.ActiveValid s → Safety.InFlight s → step s = .next t →
    Safety.ActiveValid t ∧ Safety.InFlight t

/-- Tier 3: every step keeps an axis UNBOUND, with a cleared record, exactly while its ACTIVE definition is absent
(R47). -/
def Obligations.EveryStepKeepsTheBinding : Prop :=
  ∀ s t : State, Safety.Binding s → step s = .next t → Safety.Binding t

/-- Tier 3: every step keeps the window pools adding up (R71, R72), the definitions in the ranges of R44 and the
records in the ranges of R46. -/
def Obligations.EveryStepKeepsTablesAndRecordsInRange : Prop :=
  ∀ s t : State, step s = .next t → (Safety.Pools s → Safety.Pools t) ∧ (Safety.Records s → Safety.Records t)

/-- Tier 3: every step keeps the retry table's sources distinct and its IN_PROGRESS entries owned by queued commands
(R131, R132, R133). -/
def Obligations.EveryStepKeepsTheRetryTable : Prop :=
  ∀ s t : State, Safety.Retries s → step s = .next t → Safety.Retries t

/-- Tier 3: every step keeps every reply the part holds a well-formed REPLY frame (R12). -/
def Obligations.EveryStepKeepsRepliesWellFormed : Prop :=
  ∀ s t : State, Safety.Replies s → step s = .next t → Safety.Replies t

/-- Reset: the values the manual states for each block right after the reset pin (R42, R46, R80, R96, R99, R106, R124,
R131, R188), and every law above. -/
def Obligations.ResetStateIsAsStated : Prop :=
  State.reset.rpu.linkIn = .down ∧ State.reset.rpu.linkOut = .down ∧ State.reset.rpu.receiving = none
    ∧ State.reset.rpu.startIn = true ∧ State.reset.rpu.startOut = true
    ∧ State.reset.rpu.forward = [] ∧ State.reset.rpu.arbiter = .idle ∧ State.reset.rpu.address = 0#8
    ∧ State.reset.rpu.mode = .unaddressed ∧ State.reset.rpu.lastCycle = none
    ∧ State.reset.iq = { replies := [], reserved := 0, lifetime := 20#8, hold := 0#8 }
    ∧ (∀ name : BankName, State.reset.se.bank name =
        { axes := Vector.replicate 16 none, tracks := Vector.replicate 32 none, lists := Vector.replicate 32 []
          free := 256, statusSlot := none })
    ∧ State.reset.se.selector = .a ∧ State.reset.se.generation = 0#16 ∧ State.reset.se.commit = .none
    ∧ State.reset.se.stagedOp = .idle
    ∧ (∀ i : Fin 16, State.reset.se.axisRecords[i] = { state := .unbound, position := 0, velocity := 0
                                                       direction := .unknown, missed := 0#8, lastGood := none })
    ∧ (∀ t : Fin 32, State.reset.se.trackRecords[t] = { output := false, stretchCounter := 0#8 })
    ∧ State.reset.cp.queue = [] ∧ State.reset.cp.retry = [] ∧ State.reset.onWay = []
    ∧ State.reset.mu.fault = none
    ∧ (∀ c : Counter, State.reset.mu.counters[c.index] = 0#16)
    ∧ State.reset.mu.latches = { fault := false, axisLost := false, commitDone := false, linkChange := false }
    ∧ State.reset.mu.mask = { fault := true, axisLost := true, commitDone := true, linkChange := true }
    ∧ Safety.Pools State.reset ∧ Safety.Capacities State.reset ∧ Safety.Forwarding State.reset
    ∧ Safety.Addressing State.reset ∧ Safety.ActiveValid State.reset ∧ Safety.InFlight State.reset
    ∧ Safety.Binding State.reset ∧ Safety.Records State.reset ∧ Safety.Retries State.reset
    ∧ Safety.Replies State.reset
end

