-- ==== Sys2Proof/Laws/Frames.lean ====
section
/-!
SUPPORT. Laws/Frames.lean: laws of byte order, of rewriting in place, and of the CRC's place in a frame.
-/
namespace Sys2Proof.Machine

@[simp] theorem wordBytes_length (w : Word) : (wordBytes w).length = 4 := rfl

@[simp] theorem halfBytes_length (h : Half) : (halfBytes h).length = 2 := rfl

@[simp] theorem putWord_length (f : Frame) (i : Nat) (w : Word) : (putWord f i w).length = f.length := by
  simp [putWord]

@[simp] theorem putSlotValue_length (f : Frame) (i : Nat) (w : Word) : (putSlotValue f i w).length = f.length :=
  putWord_length f (i + 2) w

@[simp] theorem resealed_length (f : Frame) : (resealed f).length = f.length := putWord_length _ _ _

@[simp] theorem sealed_length (l : List Byte) : (sealed l).length = l.length + 4 := by simp [sealed]

theorem byteAt_set (f : Frame) (i k : Nat) (b : Byte) :
    byteAt (f.set i b) k = if i = k ∧ i < f.length then b else byteAt f k := by
  unfold byteAt
  simp only [List.getD_eq_getElem?_getD, List.getElem?_set]
  by_cases h : i = k
  · subst h
    by_cases hl : i < f.length <;> simp [hl]
  · simp [h]

/-- A word put in place changes no other byte. -/
theorem byteAt_putWord_of_outside (f : Frame) (i k : Nat) (w : Word) (h : k < i ∨ i + 4 ≤ k) :
    byteAt (putWord f i w) k = byteAt f k := by
  have h0 : i ≠ k := by omega
  have h1 : i + 1 ≠ k := by omega
  have h2 : i + 2 ≠ k := by omega
  have h3 : i + 3 ≠ k := by omega
  simp [putWord, byteAt_set, h0, h1, h2, h3]

/-- A word put in place inside the frame reads back. -/
theorem wordAt_putWord (f : Frame) (i : Nat) (w : Word) (h : i + 4 ≤ f.length) : wordAt (putWord f i w) i = w := by
  have hw := w.isLt
  have h0 : i < f.length := by omega
  have h1 : i + 1 < f.length := by omega
  have h2 : i + 2 < f.length := by omega
  have h3 : i + 3 < f.length := by omega
  apply BitVec.eq_of_toNat_eq
  simp [wordAt, putWord, byteAt_set, h0, h1, h2, h3]
  omega

theorem byteAt_append_left (a b : Frame) (k : Nat) (h : k < a.length) : byteAt (a ++ b) k = byteAt a k := by
  simp [byteAt, List.getD_eq_getElem?_getD, List.getElem?_append_left h]

theorem byteAt_append_right (a b : Frame) (k : Nat) : byteAt (a ++ b) (a.length + k) = byteAt b k := by
  simp [byteAt, List.getD_eq_getElem?_getD, List.getElem?_append_right]

theorem wordAt_append_right (a b : Frame) (k : Nat) : wordAt (a ++ b) (a.length + k) = wordAt b k := by
  simp only [wordAt, Nat.add_assoc, byteAt_append_right]

/-- The bytes of a word read back as the word. -/
theorem wordAt_wordBytes (w : Word) (l : List Byte) : wordAt (wordBytes w ++ l) 0 = w := by
  have hw := w.isLt
  apply BitVec.eq_of_toNat_eq
  simp [wordAt, wordBytes, byteAt]
  omega

/-- The bytes of a half read back as the half. -/
theorem halfAt_halfBytes (h : Half) (l : List Byte) : halfAt (halfBytes h ++ l) 0 = h := by
  have hh := h.isLt
  apply BitVec.eq_of_toNat_eq
  simp [halfAt, halfBytes, byteAt]
  omega

@[simp] theorem covered_sealed (l : List Byte) : covered (sealed l) = l := by
  simp [covered, sealed]

@[simp] theorem heldCrc_sealed (l : List Byte) : heldCrc (sealed l) = crc l := by
  have h := wordAt_append_right l (wordBytes (crc l)) 0
  have h2 := wordAt_wordBytes (crc l) []
  simp only [List.append_nil] at h2
  simp only [heldCrc, sealed_length, Nat.add_sub_cancel]
  simpa [sealed, h2] using h

theorem take_putWord (f : Frame) (i n : Nat) (w : Word) (h : n ≤ i) : (putWord f i w).take n = f.take n := by
  have h1 : n ≤ i + 1 := by omega
  have h2 : n ≤ i + 2 := by omega
  have h3 : n ≤ i + 3 := by omega
  simp [putWord, List.take_set_of_le, h, h1, h2, h3]

/-- A resealed frame of at least 4 bytes covers the same bytes and holds their CRC (R16). -/
theorem covered_resealed (f : Frame) : covered (resealed f) = covered f := by
  simp [covered, resealed, take_putWord]

theorem heldCrc_resealed (f : Frame) (h : 4 ≤ f.length) : heldCrc (resealed f) = crc (covered f) := by
  unfold heldCrc
  rw [resealed_length]
  exact wordAt_putWord f _ _ (by omega)

/-- The first slot of an id (R9). -/
theorem findSlot_some (f : Frame) (id : Byte) (offset : Nat) (h : findSlot f id = some offset) :
    ∃ i, i < slotCount f ∧ offset = 6 + 6 * i ∧ byteAt f (6 + 6 * i) = id
      ∧ ∀ j, j < i → byteAt f (6 + 6 * j) ≠ id := by
  simp only [findSlot, Option.map_eq_some_iff] at h
  obtain ⟨i, hi, rfl⟩ := h
  rw [List.find?_range_eq_some] at hi
  obtain ⟨h1, h2, h3⟩ := hi
  refine ⟨i, by simpa using h2, rfl, by simpa using h1, fun j hj => ?_⟩
  simpa using h3 j hj

theorem findSlot_none (f : Frame) (id : Byte) (h : findSlot f id = none) :
    ∀ i, i < slotCount f → byteAt f (6 + 6 * i) ≠ id := by
  simp only [findSlot, Option.map_eq_none_iff, List.find?_eq_none, List.mem_range] at h
  intro i hi
  simpa using h i hi

end Sys2Proof.Machine
end

