-- ==== Sys2Proof/Laws/State.lean ====
section
/-!
SUPPORT. Laws/State.lean: what each update of the state leaves alone and what it sets, field by field.
-/
namespace Sys2Proof.Machine

@[simp] theorem report_rpu (s : State) (r : Report) : (s.report r).rpu = s.rpu := rfl
@[simp] theorem report_iq (s : State) (r : Report) : (s.report r).iq = s.iq := rfl
@[simp] theorem report_se (s : State) (r : Report) : (s.report r).se = s.se := rfl
@[simp] theorem report_cp (s : State) (r : Report) : (s.report r).cp = s.cp := rfl
@[simp] theorem report_mu (s : State) (r : Report) : (s.report r).mu = s.mu.report s.rpu.lastCycle r := rfl
@[simp] theorem report_onWay (s : State) (r : Report) : (s.report r).onWay = s.onWay := rfl
@[simp] theorem report_resetHeld (s : State) (r : Report) : (s.report r).resetHeld = s.resetHeld := rfl
@[simp] theorem report_pending (s : State) (r : Report) : (s.report r).pending = s.pending := rfl
@[simp] theorem report_line (s : State) (r : Report) : (s.report r).line = s.line := rfl
@[simp] theorem report_lag (s : State) (r : Report) : (s.report r).lag = s.lag := rfl
@[simp] theorem report_pauses (s : State) (r : Report) : (s.report r).pauses = s.pauses := rfl
@[simp] theorem report_choices (s : State) (r : Report) : (s.report r).choices = s.choices := rfl

@[simp] theorem endReception_rpu (s : State) : (s.endReception).rpu = { s.rpu with receiving := none } := rfl
@[simp] theorem endReception_iq (s : State) : (s.endReception).iq = s.iq := rfl
@[simp] theorem endReception_se (s : State) : (s.endReception).se = s.se := rfl
@[simp] theorem endReception_cp (s : State) : (s.endReception).cp = s.cp := rfl
@[simp] theorem endReception_mu (s : State) : (s.endReception).mu = s.mu := rfl
@[simp] theorem endReception_onWay (s : State) : (s.endReception).onWay = s.onWay := rfl
@[simp] theorem endReception_resetHeld (s : State) : (s.endReception).resetHeld = s.resetHeld := rfl
@[simp] theorem endReception_pending (s : State) : (s.endReception).pending = s.pending := rfl
@[simp] theorem endReception_line (s : State) : (s.endReception).line = s.line := rfl
@[simp] theorem endReception_lag (s : State) : (s.endReception).lag = s.lag := rfl
@[simp] theorem endReception_pauses (s : State) : (s.endReception).pauses = s.pauses := rfl
@[simp] theorem endReception_choices (s : State) : (s.endReception).choices = s.choices := rfl

@[simp] theorem forwardReady_rpu (s : State) (f : Frame) : (s.forwardReady f).rpu = s.rpu.join f .ready := rfl
@[simp] theorem forwardReady_iq (s : State) (f : Frame) : (s.forwardReady f).iq = s.iq := rfl
@[simp] theorem forwardReady_se (s : State) (f : Frame) : (s.forwardReady f).se = s.se := rfl
@[simp] theorem forwardReady_cp (s : State) (f : Frame) : (s.forwardReady f).cp = s.cp := rfl
@[simp] theorem forwardReady_mu (s : State) (f : Frame) : (s.forwardReady f).mu = s.mu := rfl
@[simp] theorem forwardReady_onWay (s : State) (f : Frame) : (s.forwardReady f).onWay = s.onWay := rfl
@[simp] theorem forwardReady_resetHeld (s : State) (f : Frame) : (s.forwardReady f).resetHeld = s.resetHeld := rfl
@[simp] theorem forwardReady_pending (s : State) (f : Frame) : (s.forwardReady f).pending = s.pending := rfl
@[simp] theorem forwardReady_line (s : State) (f : Frame) : (s.forwardReady f).line = s.line := rfl
@[simp] theorem forwardReady_lag (s : State) (f : Frame) : (s.forwardReady f).lag = s.lag := rfl
@[simp] theorem forwardReady_pauses (s : State) (f : Frame) : (s.forwardReady f).pauses = s.pauses := rfl
@[simp] theorem forwardReady_choices (s : State) (f : Frame) : (s.forwardReady f).choices = s.choices := rfl

@[simp] theorem setCommit_rpu (s : State) (c : Commit) : (s.setCommit c).rpu = s.rpu := rfl
@[simp] theorem setCommit_iq (s : State) (c : Commit) : (s.setCommit c).iq = s.iq := rfl
@[simp] theorem setCommit_se (s : State) (c : Commit) : (s.setCommit c).se = { s.se with commit := c } := rfl
@[simp] theorem setCommit_cp (s : State) (c : Commit) : (s.setCommit c).cp = s.cp := rfl
@[simp] theorem setCommit_mu (s : State) (c : Commit) : (s.setCommit c).mu = s.mu := rfl
@[simp] theorem setCommit_onWay (s : State) (c : Commit) : (s.setCommit c).onWay = s.onWay := rfl
@[simp] theorem setCommit_resetHeld (s : State) (c : Commit) : (s.setCommit c).resetHeld = s.resetHeld := rfl
@[simp] theorem setCommit_pending (s : State) (c : Commit) : (s.setCommit c).pending = s.pending := rfl
@[simp] theorem setCommit_line (s : State) (c : Commit) : (s.setCommit c).line = s.line := rfl
@[simp] theorem setCommit_lag (s : State) (c : Commit) : (s.setCommit c).lag = s.lag := rfl
@[simp] theorem setCommit_pauses (s : State) (c : Commit) : (s.setCommit c).pauses = s.pauses := rfl
@[simp] theorem setCommit_choices (s : State) (c : Commit) : (s.setCommit c).choices = s.choices := rfl

@[simp] theorem setFlight_rpu (s : State) (x : Flight) : (s.setFlight x).rpu = s.rpu := rfl
@[simp] theorem setFlight_iq (s : State) (x : Flight) : (s.setFlight x).iq = s.iq := rfl
@[simp] theorem setFlight_se (s : State) (x : Flight) : (s.setFlight x).se = s.se := rfl
@[simp] theorem setFlight_cp (s : State) (x : Flight) : (s.setFlight x).cp = { s.cp with flight := x } := rfl
@[simp] theorem setFlight_mu (s : State) (x : Flight) : (s.setFlight x).mu = s.mu := rfl
@[simp] theorem setFlight_onWay (s : State) (x : Flight) : (s.setFlight x).onWay = s.onWay := rfl
@[simp] theorem setFlight_resetHeld (s : State) (x : Flight) : (s.setFlight x).resetHeld = s.resetHeld := rfl
@[simp] theorem setFlight_pending (s : State) (x : Flight) : (s.setFlight x).pending = s.pending := rfl
@[simp] theorem setFlight_line (s : State) (x : Flight) : (s.setFlight x).line = s.line := rfl
@[simp] theorem setFlight_lag (s : State) (x : Flight) : (s.setFlight x).lag = s.lag := rfl
@[simp] theorem setFlight_pauses (s : State) (x : Flight) : (s.setFlight x).pauses = s.pauses := rfl
@[simp] theorem setFlight_choices (s : State) (x : Flight) : (s.setFlight x).choices = s.choices := rfl

@[simp] theorem setMode_rpu (s : State) (m : Mode) : (s.setMode m).rpu = { s.rpu with mode := m } := rfl
@[simp] theorem setMode_iq (s : State) (m : Mode) : (s.setMode m).iq = s.iq := rfl
@[simp] theorem setMode_se (s : State) (m : Mode) : (s.setMode m).se = s.se := rfl
@[simp] theorem setMode_cp (s : State) (m : Mode) : (s.setMode m).cp = s.cp := rfl
@[simp] theorem setMode_mu (s : State) (m : Mode) : (s.setMode m).mu = s.mu := rfl
@[simp] theorem setMode_onWay (s : State) (m : Mode) : (s.setMode m).onWay = s.onWay := rfl
@[simp] theorem setMode_resetHeld (s : State) (m : Mode) : (s.setMode m).resetHeld = s.resetHeld := rfl
@[simp] theorem setMode_pending (s : State) (m : Mode) : (s.setMode m).pending = s.pending := rfl
@[simp] theorem setMode_line (s : State) (m : Mode) : (s.setMode m).line = s.line := rfl
@[simp] theorem setMode_lag (s : State) (m : Mode) : (s.setMode m).lag = s.lag := rfl
@[simp] theorem setMode_pauses (s : State) (m : Mode) : (s.setMode m).pauses = s.pauses := rfl
@[simp] theorem setMode_choices (s : State) (m : Mode) : (s.setMode m).choices = s.choices := rfl

@[simp] theorem giveUpAddress_rpu (s : State) :
    (s.giveUpAddress).rpu = { s.rpu with address := 0#8, mode := .unaddressed } := rfl
@[simp] theorem giveUpAddress_iq (s : State) : (s.giveUpAddress).iq = s.iq := rfl
@[simp] theorem giveUpAddress_se (s : State) : (s.giveUpAddress).se = s.se := rfl
@[simp] theorem giveUpAddress_cp (s : State) : (s.giveUpAddress).cp = { s.cp with flight := .none } := rfl
@[simp] theorem giveUpAddress_mu (s : State) : (s.giveUpAddress).mu = s.mu := rfl
@[simp] theorem giveUpAddress_onWay (s : State) : (s.giveUpAddress).onWay = s.onWay := rfl
@[simp] theorem giveUpAddress_resetHeld (s : State) : (s.giveUpAddress).resetHeld = s.resetHeld := rfl
@[simp] theorem giveUpAddress_pending (s : State) : (s.giveUpAddress).pending = s.pending := rfl
@[simp] theorem giveUpAddress_line (s : State) : (s.giveUpAddress).line = s.line := rfl
@[simp] theorem giveUpAddress_lag (s : State) : (s.giveUpAddress).lag = s.lag := rfl
@[simp] theorem giveUpAddress_pauses (s : State) : (s.giveUpAddress).pauses = s.pauses := rfl
@[simp] theorem giveUpAddress_choices (s : State) : (s.giveUpAddress).choices = s.choices := rfl

@[simp] theorem nextPause_rpu (s : State) : (s.nextPause).rpu = s.rpu := rfl
@[simp] theorem nextPause_iq (s : State) : (s.nextPause).iq = s.iq := rfl
@[simp] theorem nextPause_se (s : State) : (s.nextPause).se = s.se := rfl
@[simp] theorem nextPause_cp (s : State) : (s.nextPause).cp = s.cp := rfl
@[simp] theorem nextPause_mu (s : State) : (s.nextPause).mu = s.mu := rfl
@[simp] theorem nextPause_onWay (s : State) : (s.nextPause).onWay = s.onWay := rfl
@[simp] theorem nextPause_resetHeld (s : State) : (s.nextPause).resetHeld = s.resetHeld := rfl
@[simp] theorem nextPause_pending (s : State) : (s.nextPause).pending = s.pending := rfl
@[simp] theorem nextPause_line (s : State) : (s.nextPause).line = s.line := rfl
@[simp] theorem nextPause_lag (s : State) : (s.nextPause).lag = s.lag := rfl
@[simp] theorem nextPause_pauses (s : State) : (s.nextPause).pauses = s.pauses.tail := rfl
@[simp] theorem nextPause_choices (s : State) : (s.nextPause).choices = s.choices := rfl

@[simp] theorem resetCp_rpu (s : State) : (s.resetCp).rpu = s.rpu := rfl
@[simp] theorem resetCp_se (s : State) : (s.resetCp).se = s.se := rfl
@[simp] theorem resetCp_mu (s : State) : (s.resetCp).mu = s.mu := rfl
@[simp] theorem resetCp_onWay (s : State) : (s.resetCp).onWay = s.onWay := rfl
@[simp] theorem resetCp_resetHeld (s : State) : (s.resetCp).resetHeld = s.resetHeld := rfl
@[simp] theorem resetCp_pending (s : State) : (s.resetCp).pending = s.pending := rfl
@[simp] theorem resetCp_line (s : State) : (s.resetCp).line = s.line := rfl
@[simp] theorem resetCp_lag (s : State) : (s.resetCp).lag = s.lag := rfl
@[simp] theorem resetCp_pauses (s : State) : (s.resetCp).pauses = s.pauses := rfl
@[simp] theorem resetCp_choices (s : State) : (s.resetCp).choices = s.choices := rfl

end Sys2Proof.Machine
end

