-- ==== Sys2Proof/Laws/Ops.lean ====
section
/-!
SUPPORT. Laws/Ops.lean: for each shared operation, once, everything it can do.
-/
namespace Sys2Proof.Machine

@[simp] theorem tabulate_getElem {α : Type} (n : Nat) (f : Fin n → α) (i : Nat) (h : i < n) :
    (tabulate n f)[i] = f ⟨i, h⟩ := by
  simp [tabulate]

/-! ### Banks by role -/

@[simp] theorem withStaged_active (e : Se) (b : Bank) : (e.withStaged b).active = e.active := by
  unfold Se.withStaged Se.active Se.bank
  cases e.selector <;> rfl

@[simp] theorem withStaged_staged (e : Se) (b : Bank) : (e.withStaged b).staged = b := by
  unfold Se.withStaged Se.staged Se.bank
  cases h : e.selector <;> simp [BankName.other]

@[simp] theorem withStaged_selector (e : Se) (b : Bank) : (e.withStaged b).selector = e.selector := by
  unfold Se.withStaged
  cases e.selector <;> rfl

@[simp] theorem withStaged_commit (e : Se) (b : Bank) : (e.withStaged b).commit = e.commit := by
  unfold Se.withStaged
  cases e.selector <;> rfl

@[simp] theorem withStaged_stagedOp (e : Se) (b : Bank) : (e.withStaged b).stagedOp = e.stagedOp := by
  unfold Se.withStaged
  cases e.selector <;> rfl

@[simp] theorem withStaged_generation (e : Se) (b : Bank) : (e.withStaged b).generation = e.generation := by
  unfold Se.withStaged
  cases e.selector <;> rfl

@[simp] theorem withStaged_axisRecords (e : Se) (b : Bank) : (e.withStaged b).axisRecords = e.axisRecords := by
  unfold Se.withStaged
  cases e.selector <;> rfl

@[simp] theorem withStaged_trackRecords (e : Se) (b : Bank) : (e.withStaged b).trackRecords = e.trackRecords := by
  unfold Se.withStaged
  cases e.selector <;> rfl

/-- After a swap the STAGED bank is ACTIVE (R113). -/
@[simp] theorem swap_active (e : Se) : e.swap.active = e.staged := rfl

/-- After a swap the bank that left the ACTIVE role is STAGED as it was (R113). -/
@[simp] theorem swap_staged (e : Se) : e.swap.staged = e.active := by
  unfold Se.swap Se.staged Se.active Se.bank
  cases e.selector <;> simp [BankName.other]

/-! ### Completion -/

/-- What completion does when a command stands at the head (R136). -/
theorem complete_eq (s : State) (e : CommandEntry) (rest : List CommandEntry) (h : s.cp.queue = e :: rest)
    (status : Status) (words : List Word) :
    s.complete status words = (match e.origin with
      | .broadcast => { s with cp := { s.cp with queue := rest, flight := .none } }
      | .unicast =>
        { s with
          cp := { queue := rest, retry := cacheReply s.cp.retry e rest (replyFrame e s.rpu.address status words),
                  flight := .none }
          iq := s.iq.joinReserved (replyFrame e s.rpu.address status words) }) := by
  unfold State.complete
  cases ho : e.origin <;> simp only [h, ho]

@[simp] theorem complete_rpu (s : State) (x : Status) (w : List Word) : (s.complete x w).rpu = s.rpu := by
  unfold State.complete
  split
  · rfl
  · split <;> rfl

@[simp] theorem complete_se (s : State) (x : Status) (w : List Word) : (s.complete x w).se = s.se := by
  unfold State.complete
  split
  · rfl
  · split <;> rfl

@[simp] theorem complete_mu (s : State) (x : Status) (w : List Word) : (s.complete x w).mu = s.mu := by
  unfold State.complete
  split
  · rfl
  · split <;> rfl

@[simp] theorem complete_resetHeld (s : State) (x : Status) (w : List Word) :
    (s.complete x w).resetHeld = s.resetHeld := by
  unfold State.complete
  split
  · rfl
  · split <;> rfl

@[simp] theorem complete_pending (s : State) (x : Status) (w : List Word) : (s.complete x w).pending = s.pending := by
  unfold State.complete
  split
  · rfl
  · split <;> rfl

@[simp] theorem complete_line (s : State) (x : Status) (w : List Word) : (s.complete x w).line = s.line := by
  unfold State.complete
  split
  · rfl
  · split <;> rfl

@[simp] theorem complete_onWay (s : State) (x : Status) (w : List Word) : (s.complete x w).onWay = s.onWay := by
  unfold State.complete
  split
  · rfl
  · split <;> rfl

@[simp] theorem complete_lag (s : State) (x : Status) (w : List Word) : (s.complete x w).lag = s.lag := by
  unfold State.complete
  split
  · rfl
  · split <;> rfl

@[simp] theorem complete_pauses (s : State) (x : Status) (w : List Word) : (s.complete x w).pauses = s.pauses := by
  unfold State.complete
  split
  · rfl
  · split <;> rfl

@[simp] theorem complete_choices (s : State) (x : Status) (w : List Word) : (s.complete x w).choices = s.choices := by
  unfold State.complete
  split
  · rfl
  · split <;> rfl

/-! ### Beginning a command -/

/-- A command at the head that the row admits and no general refusal ends is carried out (R134, R135). -/
theorem beginsIf_own (s : State) (e : CommandEntry) (rest : List CommandEntry) (admits : CommandEntry → Bool)
    (own : CommandEntry → State) (hh : s.resetHeld = false) (hq : s.cp.queue = e :: rest) (hf : s.cp.flight = .none)
    (ha : admits e = true) (hr : e.refusal = none) : s.beginsIf admits own = own e := by
  simp [State.beginsIf, hh, hq, hf, ha, hr]

/-- A command at the head that a general refusal ends completes with it (R135). -/
theorem beginsIf_refused (s : State) (e : CommandEntry) (rest : List CommandEntry) (admits : CommandEntry → Bool)
    (own : CommandEntry → State) (hh : s.resetHeld = false) (hq : s.cp.queue = e :: rest) (hf : s.cp.flight = .none)
    (ha : admits e = true) (status : Status) (words : List Word) (hr : e.refusal = some (status, words)) :
    s.beginsIf admits own = s.complete status words := by
  simp [State.beginsIf, hh, hq, hf, ha, hr]

/-- All that beginning a command can do. -/
theorem beginsIf_cases (s : State) (admits : CommandEntry → Bool) (own : CommandEntry → State) :
    s.beginsIf admits own = s
      ∨ ∃ e rest, s.resetHeld = false ∧ s.cp.queue = e :: rest ∧ s.cp.flight = .none ∧ admits e = true
        ∧ ((∃ status words, e.refusal = some (status, words) ∧ s.beginsIf admits own = s.complete status words)
          ∨ (e.refusal = none ∧ s.beginsIf admits own = own e)) := by
  cases hh : s.resetHeld
  · cases hq : s.cp.queue with
    | nil => simp [State.beginsIf, hh, hq]
    | cons e rest =>
      cases hf : s.cp.flight <;> try (simp [State.beginsIf, hh, hq, hf]; done)
      cases ha : admits e
      · simp [State.beginsIf, hh, hq, hf, ha]
      · right
        refine ⟨e, rest, rfl, rfl, rfl, ha, ?_⟩
        cases hr : e.refusal with
        | none => exact .inr ⟨rfl, beginsIf_own s e rest admits own hh hq hf ha hr⟩
        | some p => exact .inl ⟨p.1, p.2, rfl, beginsIf_refused s e rest admits own hh hq hf ha p.1 p.2 hr⟩
  · simp [State.beginsIf, hh]

/-- All that an edit behind the edit lock can do (R98). -/
theorem edit_cases (s : State) (change : Bank → Bank) (words : Bank → List Word) :
    (s.se.commit.locks = true ∧ s.edit change words = s.complete .stageLocked [])
      ∨ (s.se.commit.locks = false ∧ s.edit change words
        = State.complete { s with se := s.se.withStaged (change s.se.staged) } .ok (words (change s.se.staged))) := by
  cases h : s.se.commit.locks <;> simp [State.edit, h]

/-! ### The forward queue -/

/-- All that the test of R30 can do. -/
theorem ifRoom_cases (s : State) (f : Frame) (routes : State → State) :
    (2 ≤ s.rpu.forward.length ∧ s.ifRoom f routes = s.send [[.count .forwardDrops,
        .fault { code := .forwardDrop, subject := 0#8, detail := BitVec.ofNat 16 (byteAt f 0).toNat }]])
      ∨ (s.rpu.forward.length < 2 ∧ s.ifRoom f routes = routes s) := by
  unfold State.ifRoom Config.forwardPlaces
  split
  · exact .inl ⟨by assumption, rfl⟩
  · exact .inr ⟨by omega, rfl⟩

@[simp] theorem handBack_length (l : List ForwardEntry) (f : Frame) : (handBack l f).length = l.length := by
  induction l with
  | nil => rfl
  | cons x r ih => unfold handBack; split <;> simp [ih]

/-! ### The MU takes notices: nothing but the MU, what is on its way, and the model's own choices change -/

/-- What reporting a list one by one leaves alone. -/
theorem foldl_report_eq (l : List Report) (s : State) :
    l.foldl State.report s = { s with mu := l.foldl (fun m r => m.report s.rpu.lastCycle r) s.mu } := by
  induction l generalizing s with
  | nil => rfl
  | cons r rest ih => simp [List.foldl_cons, ih, State.report]

theorem bringToFront_perm {α : Type} (l : List α) (i : Nat) : (bringToFront l i).Perm l := by
  unfold bringToFront
  split
  · rename_i x hx
    obtain ⟨hi, rfl⟩ := List.getElem?_eq_some_iff.mp hx
    exact List.getElem_cons_eraseIdx_perm hi
  · exact .refl _

/-- The MU takes reports that reach it together: each once, in some order. -/
theorem reportAll_eq (s : State) (l : List Report) :
    ∃ order : List Report, order.Perm l ∧ ∃ n, s.reportAll l
      = { s with mu := order.foldl (fun m r => m.report s.rpu.lastCycle r) s.mu, choices := n } := by
  match l with
  | [] => exact ⟨[], .refl _, s.choices, rfl⟩
  | [r] => exact ⟨[r], .refl _, s.choices, rfl⟩
  | a :: b :: rest =>
    refine ⟨bringToFront (a :: b :: rest) (Config.freeChoice s.choices % (a :: b :: rest).length),
      bringToFront_perm _ _, s.choices + 1, ?_⟩
    simp only [State.reportAll, foldl_report_eq]

/-- The MU takes notices that reach it together: each once, the reports in some order. -/
theorem takeAll_eq (s : State) (l : List Notice) :
    ∃ order : List Report, order.Perm (l.filterMap Notice.report?) ∧ ∃ n, s.takeAll l
      = { s with mu := order.foldl (fun m r => m.report s.rpu.lastCycle r) (l.foldl Mu.mark s.mu), choices := n } :=
  reportAll_eq { s with mu := l.foldl Mu.mark s.mu } (l.filterMap Notice.report?)

/-- Increments and latch reports are taken as any notice is. -/
theorem foldl_mark_eq (l : List Notice) (m : Mu) (cycle : Option Half) :
    l.foldl Mu.mark m = (l.filter (fun n => n.report?.isNone)).foldl (fun m n => m.take cycle n) m := by
  induction l generalizing m with
  | nil => rfl
  | cons a r ih => cases a <;> simp [Mu.mark, Notice.report?, Mu.take, ih]

/-- The MU takes notices that reach it together: each once, in some order, with the last cycle seen. -/
theorem takeAll_order (s : State) (l : List Notice) :
    ∃ order : List Notice, order.Perm l ∧ ∃ n, s.takeAll l
      = { s with mu := order.foldl (fun m x => m.take s.rpu.lastCycle x) s.mu, choices := n } := by
  obtain ⟨reports, hp, n, h⟩ := takeAll_eq s l
  have hf : (l.filterMap Notice.report?).map Notice.fault = l.filter (fun n => !n.report?.isNone) := by
    clear hp h
    induction l with
    | nil => rfl
    | cons a r ih =>
      cases a <;> simp [Notice.report?, List.filterMap_cons] <;> simpa [Notice.report?] using ih
  refine ⟨l.filter (fun n => n.report?.isNone) ++ reports.map Notice.fault, ?_, n, ?_⟩
  · refine (List.Perm.append_left _ (hp.map Notice.fault)).trans ?_
    rw [hf]
    exact List.filter_append_perm _ l
  · rw [h, List.foldl_append, List.foldl_map, foldl_mark_eq l s.mu s.rpu.lastCycle]
    rfl

/-- The notice at a position of all that are on their way, found in its event. -/
theorem pickNotice_at (before after : List Event) (e : Event) (l r : List Notice) (x : Notice)
    (he : e.notices = l ++ x :: r) :
    pickNotice (before ++ e :: after) ((before.flatMap Event.notices).length + l.length)
      = some (x, before ++ e.without l.length ++ after) := by
  induction before with
  | nil => simp [pickNotice, he]
  | cons b bs ih =>
    have hb : b.notices[(((b :: bs).flatMap Event.notices).length + l.length)]? = none := by
      simp
      omega
    have hn : ((b :: bs).flatMap Event.notices).length + l.length - b.notices.length
        = (bs.flatMap Event.notices).length + l.length := by
      simp only [List.flatMap_cons, List.length_append]
      omega
    simp only [List.cons_append, pickNotice, hb]
    rw [hn, ih]
    rfl

/-- Beyond the last notice on its way there is none. -/
theorem pickNotice_beyond (l : List Event) (n : Nat) (h : (l.flatMap Event.notices).length ≤ n) :
    pickNotice l n = none := by
  induction l generalizing n with
  | nil => rfl
  | cons b bs ih =>
    simp only [List.flatMap_cons, List.length_append] at h
    have hb : b.notices[n]? = none := by
      simp
      omega
    simp only [pickNotice, hb]
    rw [ih _ (by omega)]
    rfl

/-- The `lag` that rules is the one given. -/
theorem deliverBy_lag (lag l : List Nat) (s : State) :
    State.deliverBy lag { s with lag := l } = State.deliverBy lag s := by
  induction lag generalizing s with
  | nil => simp only [State.deliverBy]
  | cons k rest ih =>
    by_cases hw : s.onWay = []
    · simp [State.deliverBy, hw]
    · cases hp : pickNotice s.onWay k with
      | none => simp [State.deliverBy, hw, hp]
      | some p =>
        simp only [State.deliverBy, hw, hp, if_false]
        exact ih { s with mu := s.mu.take s.rpu.lastCycle p.1, onWay := p.2 }

/-- All that the taking of notices on their way can do. -/
theorem deliverBy_eq (lag : List Nat) (s : State) :
    ∃ mu onWay rest n, s.deliverBy lag = { s with mu := mu, onWay := onWay, lag := rest, choices := n } := by
  induction lag generalizing s with
  | nil =>
    unfold State.deliverBy
    split
    · exact ⟨s.mu, s.onWay, [], s.choices, rfl⟩
    · obtain ⟨order, -, n, h⟩ := takeAll_eq { s with onWay := [], lag := [] } (s.onWay.flatMap Event.notices)
      exact ⟨_, _, _, n, h⟩
  | cons k rest ih =>
    by_cases hw : s.onWay = []
    · exact ⟨s.mu, s.onWay, k :: rest, s.choices, by simp [State.deliverBy, hw]⟩
    · cases hp : pickNotice s.onWay k with
      | none => exact ⟨s.mu, s.onWay, rest, s.choices, by simp [State.deliverBy, hw, hp]⟩
      | some p =>
        obtain ⟨mu, onWay, r, n, h⟩ := ih { s with mu := s.mu.take s.rpu.lastCycle p.1, onWay := p.2 }
        exact ⟨mu, onWay, r, n, by simp [State.deliverBy, hw, hp, h]⟩

/-- All that the taking of notices on their way can do, outside the reset pin. -/
theorem deliver_eq (s : State) :
    ∃ mu onWay rest n, s.deliver = { s with mu := mu, onWay := onWay, lag := rest, choices := n } := by
  unfold State.deliver
  split
  · exact ⟨s.mu, s.onWay, s.lag, s.choices, rfl⟩
  · exact deliverBy_eq s.lag s

/-- All that setting events out for the MU can do. -/
theorem sendEvents_eq (s : State) (l : List Event) :
    ∃ mu onWay rest n, s.sendEvents l = { s with mu := mu, onWay := onWay, lag := rest, choices := n } :=
  deliver_eq { s with onWay := s.onWay ++ l }

/-- With nothing on its way and nothing to hold it back, the MU takes what is sent at once. -/
theorem send_at_once (s : State) (l : List (List Notice)) (hr : s.resetHeld = false) (hw : s.onWay = [])
    (hl : s.lag = []) : s.send l = s.takeAll l.flatten := by
  obtain ⟨rpu, iq, se, cp, mu, onWay, held, pending, line, lag, pauses, choices⟩ := s
  subst hr hw hl
  have h : (l.map Event.whole).flatMap Event.notices = l.flatten := by
    induction l with
    | nil => rfl
    | cons x r ih => simp [Event.whole, ih]
  cases l with
  | nil => rfl
  | cons x r =>
    show State.takeAll _ (((x :: r).map Event.whole).flatMap Event.notices) = _
    rw [h]

/-- With nothing on its way the MU has nothing to take. -/
@[simp] theorem deliver_of_nothing_on_way (s : State) (h : s.onWay = []) : s.deliver = s := by
  obtain ⟨rpu, iq, se, cp, mu, onWay, held, pending, line, lag, pauses, choices⟩ := s
  subst h
  cases held <;> cases lag <;> rfl

/-- All that a read of the MU settles. -/
theorem settle_eq (s : State) :
    ∃ mu onWay n, s.settle = { s with mu := mu, onWay := onWay, choices := n } := by
  obtain ⟨order, -, n, h⟩ := takeAll_eq
    { s with onWay := (s.onWay.filter (fun e => !e.isOverdue)).map Event.seen }
    ((s.onWay.filter Event.isOverdue).flatMap Event.notices)
  exact ⟨_, _, n, h⟩

/-- All that happens before a read of the MU. -/
theorem atRead_eq (s : State) :
    ∃ mu onWay rest n, s.atRead = { s with mu := mu, onWay := onWay, lag := rest, choices := n } := by
  obtain ⟨mu, onWay, rest, n, h⟩ := deliver_eq s
  obtain ⟨mu', onWay', n', h'⟩ := settle_eq s.deliver
  exact ⟨mu', onWay', rest, n', by rw [State.atRead, h', h]⟩

/-- With nothing on its way a read finds the MU as it is. -/
theorem atRead_of_nothing_on_way (s : State) (h : s.onWay = []) : s.atRead = s := by
  rw [State.atRead, deliver_of_nothing_on_way s h]
  obtain ⟨rpu, iq, se, cp, mu, onWay, held, pending, line, lag, pauses, choices⟩ := s
  subst h
  rfl

/-- One more increment, in numbers. -/
theorem countUp_toNat (c : Half) : (countUp c).toNat = min (c.toNat + 1) 65535 := by
  unfold countUp
  split
  · next h => subst h; rfl
  · next h =>
    have hn : c.toNat ≠ 65535 := fun hc => h (BitVec.eq_of_toNat_eq hc)
    have hl := c.isLt
    rw [BitVec.toNat_add, Nat.mod_eq_of_lt (by simp; omega)]
    simp
    omega

/-- What a list keeps when the first element that satisfies a test goes: the others, in their order. -/
theorem eraseP_keeps {α : Type} (p : α → Bool) (l : List α) :
    (l.eraseP p).filter (fun x => !p x) = l.filter (fun x => !p x) ∧ (l.eraseP p).countP p = l.countP p - 1 := by
  induction l with
  | nil => exact ⟨rfl, rfl⟩
  | cons x r ih => by_cases h : p x <;> simp [h, ih.1, ih.2]

/-- All that the taking of the first acceptances on their way can do. -/
theorem takeAcceptances_eq (n : Nat) (s : State) :
    ∃ mu onWay, Nat.repeat State.takeAcceptance n s = { s with mu := mu, onWay := onWay }
      ∧ onWay.Sublist s.onWay
      ∧ onWay.filter (fun e => !e.isAcceptance) = s.onWay.filter (fun e => !e.isAcceptance)
      ∧ onWay.countP Event.isAcceptance = s.onWay.countP Event.isAcceptance - n
      ∧ mu = { s.mu with counters := mu.counters }
      ∧ ∀ i : Fin 16, mu.counters[i].toNat = if i = Counter.commandsAccepted.index then
          min (s.mu.counters[i].toNat + n) 65535 else s.mu.counters[i].toNat := by
  induction n with
  | zero =>
    refine ⟨s.mu, s.onWay, rfl, List.Sublist.refl _, rfl, rfl, rfl, fun i => ?_⟩
    have := s.mu.counters[i].isLt
    split <;> omega
  | succ n ih =>
    obtain ⟨mu, onWay, h, hs, hf, hc, hm, hi⟩ := ih
    refine ⟨mu.count .commandsAccepted, onWay.eraseP Event.isAcceptance, ?_, onWay.eraseP_sublist.trans hs,
      (eraseP_keeps _ _).1.trans hf, ?_, ?_, fun i => ?_⟩
    · show State.takeAcceptance (Nat.repeat State.takeAcceptance n s) = _
      rw [h]
      rfl
    · rw [(eraseP_keeps _ _).2, hc]
      omega
    · rw [hm]
      rfl
    · by_cases h7 : i = Counter.commandsAccepted.index
      · subst h7
        have hv := hi Counter.commandsAccepted.index
        simp only [if_true] at hv ⊢
        show ((mu.counters.set Counter.commandsAccepted.index.val _)[Counter.commandsAccepted.index.val]).toNat = _
        rw [Vector.getElem_set_self, countUp_toNat, hv]
        omega
      · have hv := hi i
        rw [if_neg h7] at hv ⊢
        show ((mu.counters.set Counter.commandsAccepted.index.val _)[i.val]).toNat = _
        rw [Vector.getElem_set_ne _ _ (fun h => h7 (Fin.ext h.symm))]
        exact hv

/-- Which acceptances are still on their way: the `behind` last ones at most; every other event stays as it is. -/
theorem acceptedBefore_eq (behind : Nat) (s : State) :
    ∃ mu onWay, s.acceptedBefore behind = { s with mu := mu, onWay := onWay }
      ∧ onWay.Sublist s.onWay
      ∧ onWay.filter (fun e => !e.isAcceptance) = s.onWay.filter (fun e => !e.isAcceptance)
      ∧ onWay.countP Event.isAcceptance = min behind (s.onWay.countP Event.isAcceptance)
      ∧ mu = { s.mu with counters := mu.counters }
      ∧ ∀ i : Fin 16, mu.counters[i].toNat = if i = Counter.commandsAccepted.index then
          min (s.mu.counters[i].toNat + (s.onWay.countP Event.isAcceptance - behind)) 65535
        else s.mu.counters[i].toNat := by
  obtain ⟨mu, onWay, h, hs, hf, hc, hm, hi⟩ :=
    takeAcceptances_eq (s.onWay.countP Event.isAcceptance - behind) s
  exact ⟨mu, onWay, h, hs, hf, by omega, hm, hi⟩

/-- With none left behind, every acceptance on its way has been taken (R171). -/
theorem acceptedBefore_zero (s : State) :
    ∃ mu, s.acceptedBefore 0 = { s with mu := mu, onWay := s.onWay.filter (fun e => !e.isAcceptance) } := by
  obtain ⟨mu, onWay, h, -, hf, hc, -, -⟩ := acceptedBefore_eq 0 s
  have hall : onWay.filter (fun e => !e.isAcceptance) = onWay := by
    rw [List.filter_eq_self]
    intro e he
    have := List.countP_eq_zero.mp (hc.trans (Nat.zero_min _)) e he
    simpa using this
  exact ⟨mu, by rw [h, ← hf, hall]⟩

/-- With nothing on its way there is no acceptance to take. -/
@[simp] theorem acceptedBefore_of_nothing_on_way (behind : Nat) (s : State) (h : s.onWay = []) :
    s.acceptedBefore behind = s := by
  rw [State.acceptedBefore, h, List.countP_nil, Nat.zero_sub]
  rfl

/-- All that happens before a READ_COUNTERS looks at the MU. -/
theorem atCount_eq (s : State) :
    ∃ mu onWay rest n, s.atCount = { s with mu := mu, onWay := onWay, lag := rest, choices := n } := by
  obtain ⟨_, _, rest, n, h⟩ := atRead_eq s
  obtain ⟨mu, onWay, h', -⟩ := acceptedBefore_eq s.cp.queue.tail.length s.atRead
  exact ⟨mu, onWay, rest, n, by rw [State.atCount, h', h]⟩

@[simp] theorem takeAll_rpu (s : State) (l : List Notice) : (s.takeAll l).rpu = s.rpu := by
  obtain ⟨_, _, _, h⟩ := takeAll_eq s l
  rw [h]

@[simp] theorem takeAll_iq (s : State) (l : List Notice) : (s.takeAll l).iq = s.iq := by
  obtain ⟨_, _, _, h⟩ := takeAll_eq s l
  rw [h]

@[simp] theorem takeAll_se (s : State) (l : List Notice) : (s.takeAll l).se = s.se := by
  obtain ⟨_, _, _, h⟩ := takeAll_eq s l
  rw [h]

@[simp] theorem takeAll_cp (s : State) (l : List Notice) : (s.takeAll l).cp = s.cp := by
  obtain ⟨_, _, _, h⟩ := takeAll_eq s l
  rw [h]

@[simp] theorem takeAll_resetHeld (s : State) (l : List Notice) : (s.takeAll l).resetHeld = s.resetHeld := by
  obtain ⟨_, _, _, h⟩ := takeAll_eq s l
  rw [h]

@[simp] theorem takeAll_pending (s : State) (l : List Notice) : (s.takeAll l).pending = s.pending := by
  obtain ⟨_, _, _, h⟩ := takeAll_eq s l
  rw [h]

@[simp] theorem takeAll_line (s : State) (l : List Notice) : (s.takeAll l).line = s.line := by
  obtain ⟨_, _, _, h⟩ := takeAll_eq s l
  rw [h]

@[simp] theorem takeAll_pauses (s : State) (l : List Notice) : (s.takeAll l).pauses = s.pauses := by
  obtain ⟨_, _, _, h⟩ := takeAll_eq s l
  rw [h]

@[simp] theorem takeAll_onWay (s : State) (l : List Notice) : (s.takeAll l).onWay = s.onWay := by
  obtain ⟨_, _, _, h⟩ := takeAll_eq s l
  rw [h]

@[simp] theorem takeAll_lag (s : State) (l : List Notice) : (s.takeAll l).lag = s.lag := by
  obtain ⟨_, _, _, h⟩ := takeAll_eq s l
  rw [h]

@[simp] theorem deliver_rpu (s : State) : (s.deliver).rpu = s.rpu := by
  obtain ⟨_, _, _, _, h⟩ := deliver_eq s
  rw [h]

@[simp] theorem deliver_iq (s : State) : (s.deliver).iq = s.iq := by
  obtain ⟨_, _, _, _, h⟩ := deliver_eq s
  rw [h]

@[simp] theorem deliver_se (s : State) : (s.deliver).se = s.se := by
  obtain ⟨_, _, _, _, h⟩ := deliver_eq s
  rw [h]

@[simp] theorem deliver_cp (s : State) : (s.deliver).cp = s.cp := by
  obtain ⟨_, _, _, _, h⟩ := deliver_eq s
  rw [h]

@[simp] theorem deliver_resetHeld (s : State) : (s.deliver).resetHeld = s.resetHeld := by
  obtain ⟨_, _, _, _, h⟩ := deliver_eq s
  rw [h]

@[simp] theorem deliver_pending (s : State) : (s.deliver).pending = s.pending := by
  obtain ⟨_, _, _, _, h⟩ := deliver_eq s
  rw [h]

@[simp] theorem deliver_line (s : State) : (s.deliver).line = s.line := by
  obtain ⟨_, _, _, _, h⟩ := deliver_eq s
  rw [h]

@[simp] theorem deliver_pauses (s : State) : (s.deliver).pauses = s.pauses := by
  obtain ⟨_, _, _, _, h⟩ := deliver_eq s
  rw [h]

@[simp] theorem sendEvents_rpu (s : State) (l : List Event) : (s.sendEvents l).rpu = s.rpu := by
  obtain ⟨_, _, _, _, h⟩ := sendEvents_eq s l
  rw [h]

@[simp] theorem sendEvents_iq (s : State) (l : List Event) : (s.sendEvents l).iq = s.iq := by
  obtain ⟨_, _, _, _, h⟩ := sendEvents_eq s l
  rw [h]

@[simp] theorem sendEvents_se (s : State) (l : List Event) : (s.sendEvents l).se = s.se := by
  obtain ⟨_, _, _, _, h⟩ := sendEvents_eq s l
  rw [h]

@[simp] theorem sendEvents_cp (s : State) (l : List Event) : (s.sendEvents l).cp = s.cp := by
  obtain ⟨_, _, _, _, h⟩ := sendEvents_eq s l
  rw [h]

@[simp] theorem sendEvents_resetHeld (s : State) (l : List Event) : (s.sendEvents l).resetHeld = s.resetHeld := by
  obtain ⟨_, _, _, _, h⟩ := sendEvents_eq s l
  rw [h]

@[simp] theorem sendEvents_pending (s : State) (l : List Event) : (s.sendEvents l).pending = s.pending := by
  obtain ⟨_, _, _, _, h⟩ := sendEvents_eq s l
  rw [h]

@[simp] theorem sendEvents_line (s : State) (l : List Event) : (s.sendEvents l).line = s.line := by
  obtain ⟨_, _, _, _, h⟩ := sendEvents_eq s l
  rw [h]

@[simp] theorem sendEvents_pauses (s : State) (l : List Event) : (s.sendEvents l).pauses = s.pauses := by
  obtain ⟨_, _, _, _, h⟩ := sendEvents_eq s l
  rw [h]

@[simp] theorem send_rpu (s : State) (l : List (List Notice)) : (s.send l).rpu = s.rpu := sendEvents_rpu s _

@[simp] theorem send_iq (s : State) (l : List (List Notice)) : (s.send l).iq = s.iq := sendEvents_iq s _

@[simp] theorem send_se (s : State) (l : List (List Notice)) : (s.send l).se = s.se := sendEvents_se s _

@[simp] theorem send_cp (s : State) (l : List (List Notice)) : (s.send l).cp = s.cp := sendEvents_cp s _

@[simp] theorem send_resetHeld (s : State) (l : List (List Notice)) : (s.send l).resetHeld = s.resetHeld := sendEvents_resetHeld s _

@[simp] theorem send_pending (s : State) (l : List (List Notice)) : (s.send l).pending = s.pending := sendEvents_pending s _

@[simp] theorem send_line (s : State) (l : List (List Notice)) : (s.send l).line = s.line := sendEvents_line s _

@[simp] theorem send_pauses (s : State) (l : List (List Notice)) : (s.send l).pauses = s.pauses := sendEvents_pauses s _

@[simp] theorem atRead_rpu (s : State) : (s.atRead).rpu = s.rpu := by
  obtain ⟨_, _, _, _, h⟩ := atRead_eq s
  rw [h]

@[simp] theorem atRead_iq (s : State) : (s.atRead).iq = s.iq := by
  obtain ⟨_, _, _, _, h⟩ := atRead_eq s
  rw [h]

@[simp] theorem atRead_se (s : State) : (s.atRead).se = s.se := by
  obtain ⟨_, _, _, _, h⟩ := atRead_eq s
  rw [h]

@[simp] theorem atRead_cp (s : State) : (s.atRead).cp = s.cp := by
  obtain ⟨_, _, _, _, h⟩ := atRead_eq s
  rw [h]

@[simp] theorem atRead_resetHeld (s : State) : (s.atRead).resetHeld = s.resetHeld := by
  obtain ⟨_, _, _, _, h⟩ := atRead_eq s
  rw [h]

@[simp] theorem atRead_pending (s : State) : (s.atRead).pending = s.pending := by
  obtain ⟨_, _, _, _, h⟩ := atRead_eq s
  rw [h]

@[simp] theorem atRead_line (s : State) : (s.atRead).line = s.line := by
  obtain ⟨_, _, _, _, h⟩ := atRead_eq s
  rw [h]

@[simp] theorem atRead_pauses (s : State) : (s.atRead).pauses = s.pauses := by
  obtain ⟨_, _, _, _, h⟩ := atRead_eq s
  rw [h]

/-- The mask is no report's business (R197). -/
@[simp] theorem take_mask (m : Mu) (cycle : Option Half) (n : Notice) : (m.take cycle n).mask = m.mask := by
  cases n <;> rfl

@[simp] theorem acceptedBefore_rpu (behind : Nat) (s : State) : (s.acceptedBefore behind).rpu = s.rpu := by
  obtain ⟨_, _, h, -⟩ := acceptedBefore_eq behind s
  rw [h]

@[simp] theorem acceptedBefore_iq (behind : Nat) (s : State) : (s.acceptedBefore behind).iq = s.iq := by
  obtain ⟨_, _, h, -⟩ := acceptedBefore_eq behind s
  rw [h]

@[simp] theorem acceptedBefore_se (behind : Nat) (s : State) : (s.acceptedBefore behind).se = s.se := by
  obtain ⟨_, _, h, -⟩ := acceptedBefore_eq behind s
  rw [h]

@[simp] theorem acceptedBefore_cp (behind : Nat) (s : State) : (s.acceptedBefore behind).cp = s.cp := by
  obtain ⟨_, _, h, -⟩ := acceptedBefore_eq behind s
  rw [h]

@[simp] theorem acceptedBefore_resetHeld (behind : Nat) (s : State) : (s.acceptedBefore behind).resetHeld = s.resetHeld := by
  obtain ⟨_, _, h, -⟩ := acceptedBefore_eq behind s
  rw [h]

@[simp] theorem acceptedBefore_pending (behind : Nat) (s : State) : (s.acceptedBefore behind).pending = s.pending := by
  obtain ⟨_, _, h, -⟩ := acceptedBefore_eq behind s
  rw [h]

@[simp] theorem acceptedBefore_line (behind : Nat) (s : State) : (s.acceptedBefore behind).line = s.line := by
  obtain ⟨_, _, h, -⟩ := acceptedBefore_eq behind s
  rw [h]

@[simp] theorem acceptedBefore_pauses (behind : Nat) (s : State) : (s.acceptedBefore behind).pauses = s.pauses := by
  obtain ⟨_, _, h, -⟩ := acceptedBefore_eq behind s
  rw [h]

@[simp] theorem acceptedBefore_lag (behind : Nat) (s : State) : (s.acceptedBefore behind).lag = s.lag := by
  obtain ⟨_, _, h, -⟩ := acceptedBefore_eq behind s
  rw [h]

@[simp] theorem atCount_rpu (s : State) : s.atCount.rpu = s.rpu := by
  obtain ⟨_, _, _, _, h⟩ := atCount_eq s
  rw [h]

@[simp] theorem atCount_iq (s : State) : s.atCount.iq = s.iq := by
  obtain ⟨_, _, _, _, h⟩ := atCount_eq s
  rw [h]

@[simp] theorem atCount_se (s : State) : s.atCount.se = s.se := by
  obtain ⟨_, _, _, _, h⟩ := atCount_eq s
  rw [h]

@[simp] theorem atCount_cp (s : State) : s.atCount.cp = s.cp := by
  obtain ⟨_, _, _, _, h⟩ := atCount_eq s
  rw [h]

@[simp] theorem atCount_resetHeld (s : State) : s.atCount.resetHeld = s.resetHeld := by
  obtain ⟨_, _, _, _, h⟩ := atCount_eq s
  rw [h]

@[simp] theorem atCount_pending (s : State) : s.atCount.pending = s.pending := by
  obtain ⟨_, _, _, _, h⟩ := atCount_eq s
  rw [h]

@[simp] theorem atCount_line (s : State) : s.atCount.line = s.line := by
  obtain ⟨_, _, _, _, h⟩ := atCount_eq s
  rw [h]

@[simp] theorem atCount_pauses (s : State) : s.atCount.pauses = s.pauses := by
  obtain ⟨_, _, _, _, h⟩ := atCount_eq s
  rw [h]

end Sys2Proof.Machine
end

