-- ==== Sys2Proof/WellFormed.lean ====
section
/-!
DEFINITION. WellFormed.lean: which commands name a step of the part: a received frame fits the receive buffer and
belongs to the row that receives it; a position of the reply queue exists.
-/
namespace Sys2Proof

/-- A frame that fits the receive buffer (R22) and is received by this row (R23). -/
def frameFits (row : Instr) (f : Frame) : Bool :=
  decide (f.length ≤ Config.receiveBytes) && decide (Machine.receptionRow f = row)

/-- Well-formedness of a command. -/
def Instr.wellFormed (i : Instr) : Bool :=
  match i with
  | .receiveSample f => frameFits i f
  | .receiveDamaged f => frameFits i f
  | .receiveCommand f => frameFits i f
  | .receiveReply f => frameFits i f
  | .receiveEnumerate f => frameFits i f
  | .receiveForeign f => frameFits i f
  | .replyExpired position => decide (position < Config.replyPlaces)
  | .resetPinAsserted | .resetPinReleased | .lineAcquired _ | .lineLost _ | .rxAbort _ | .sampleEvaluation
  | .lostSample | .sendForwardBegin | .sendReplyBegin | .frameForwarded | .replySent | .outDiscard | .identify
  | .readStatus | .defineAxis | .clearAxis | .defineTrack | .clearTrack | .loadWindows | .stageCopy | .stageClear
  | .defineStatusSlot | .commit | .cancelCommit | .readAxis | .readTrack | .readWindows | .readPool | .readFault
  | .clearFault | .readCounters | .setAttentionMask | .ackAttention | .setReplyLifetime | .bypass | .resume
  | .releaseAddress | .resetTables | .resetAll | .unknownCommand | .validationComplete | .copyComplete
  | .clearComplete | .commitDrop | .dynamicRecordClear _ | .seTableReset _ => true

end Sys2Proof
end

