-- ==== Sys2Proof/Tests/Slice0.lean ====
section
/-!
SUPPORT. Tests/Slice0.lean: small checks of the model against the manual's own examples, the smoke test of
well-formedness, and for each statement with hypotheses a witness that they can be met together.
-/
namespace Sys2Proof.Tests

open Sys2Proof.Machine Sys2Proof.Claims

set_option Elab.async false

/-! ### Small states, frames and commands -/

/-- A part with address 5 in RUNNING, both links UP, last cycle seen 99. -/
def station : State :=
  { State.reset with
    rpu := { Rpu.reset with
      linkIn := .up, linkOut := .up, startIn := false, startOut := false, address := 5#8, mode := .running
      lastCycle := some 99#16 } }

/-- A SAMPLE frame of a cycle with quiet count and slots (id, type, value). -/
def sampleFrame (cycle : Half) (quiet : Byte) (slots : List (Byte × Byte × Word)) : Frame :=
  sealed ([1#8, 0#8] ++ halfBytes cycle ++ [quiet, BitVec.ofNat 8 slots.length]
    ++ slots.flatMap (fun x => [x.1, x.2.1] ++ wordBytes x.2.2))

/-- A COMMAND frame from station 1. -/
def commandFrame (dest : Byte) (tag : Half) (code : Byte) (args : List Word) : Frame :=
  sealed ([2#8, dest, 1#8] ++ halfBytes tag ++ [code, BitVec.ofNat 8 args.length] ++ args.flatMap wordBytes)

/-- The queue entry of a unicast command from station 1 with tag 7. -/
def entry (code : Byte) (args : List Word) : CommandEntry where
  destination := 5#8
  source := 1#8
  tag := some 7#16
  code := some code
  argCount := some (BitVec.ofNat 8 args.length)
  args := args
  malformed := false
  origin := .unicast

/-- A state whose CP holds one command at the head. -/
def holding (s : State) (e : CommandEntry) (flight : Flight) : State :=
  { s with
    cp := { queue := [e], retry := [{ source := 1#8, tag := 7#16, cached := none }], flight := flight }
    iq := { s.iq with reserved := 1 } }

theorem begins_holding (e : CommandEntry) : Begins (holding station e .none) e [] := ⟨rfl, rfl, rfl⟩

theorem waits_holding (e : CommandEntry) (x : Flight) : Waits (holding station e x) e [] x := ⟨rfl, rfl, rfl⟩

theorem carries_entry (code : Byte) (args : List Word) : Carries (entry code args) code args := ⟨rfl, rfl, rfl⟩

/-- The state a step answers. -/
def after (x : Host.Outcome State Fault Refusal) : State :=
  match x with
  | .next t => t
  | _ => State.reset

/-- The command in flight ends with this reply, the last to join. -/
def lastReply (x : Host.Outcome State Fault Refusal) : Option (Byte × List Word) :=
  ((after x).iq.replies.getLast?).map (fun r => (byteAt r.frame 6,
    (List.range (byteAt r.frame 7).toNat).map (fun j => wordAt r.frame (8 + 4 * j))))

/-- Axis 0: ROTARY, modulus 4096, source slot 20, stale limit 3, max step 100. -/
def axis0 : AxisDef := { source := 20#8, kind := .rotary, modulus := 4096, stale := 3#8, maxStep := 100 }

/-- Axis 1: LINEAR, source slot 21, stale limit 2, max step 1000. -/
def axis1 : AxisDef := { source := 21#8, kind := .linear, modulus := 0, stale := 2#8, maxStep := 1000 }

/-- A track of an axis, on bit of slot 40. -/
def trackOn (axis : Fin 16) (bit : Fin 32) : TrackDef where
  enabled := true
  axis := axis
  slot := 40#8
  bit := bit
  polarity := .normal
  qualifier := .any
  lead := 4
  failAction := .forceOff
  stretch := 2#8

/-- A bank with both axes, track 2 on axis 0 with the window (0, 100), and the status slot 50. -/
def bank0 : Bank :=
  { (((Bank.empty.setAxis 0 (some axis0)).setAxis 1 (some axis1)).setTrack 2 (trackOn 0 0)).setList 2
      [{ on := 0#32, off := 100#32 }] with statusSlot := some 50#8 }

/-- Axis 0 tracking at 4000 with velocity +30. -/
def tracking0 : AxisRecord where
  state := .tracking
  position := 4000
  velocity := 30
  direction := .forward
  missed := 0#8
  lastGood := some 99#16

/-- The station with `bank0` ACTIVE, axis 0 TRACKING, axis 1 COASTING on its last miss. -/
def working : State :=
  { station with
    se := { Se.reset with
      bankA := bank0
      axisRecords := (Se.reset.axisRecords.set 0 tracking0).set 1
        { tracking0 with state := .coasting, missed := 1#8 } } }

/-- Cycle 100: axis 0 moves on by 30, axis 1 is absent, the ACTION and STATUS slots are present. -/
def frame100 : Frame :=
  sampleFrame 100#16 0#8 [(20#8, 1#8, 4030#32), (40#8, 2#8, 0xF0#32), (50#8, 3#8, 0#32)]

/-- The station as the SE is about to evaluate a frame. -/
def evaluating (s : State) (f : Frame) : State :=
  { s with rpu := { s.rpu with handed := [.sample], forward := [{ frame := f, state := .inEvaluation }] } }

theorem evaluates_evaluating : Evaluates (evaluating working frame100) frame100 [] := ⟨rfl, rfl, rfl⟩

/-! ### Well-formedness: an ill-formed term for each check -/

/-- A frame of 1537 bytes does not fit the receive buffer. -/
theorem test_illFormed_tooLong : frameFits (.receiveForeign []) (List.replicate 1537 0#8) = false := by
  decide +kernel

theorem test_illFormed_sample : (Instr.receiveSample [1#8]).wellFormed = false := by decide +kernel
theorem test_illFormed_damaged : (Instr.receiveDamaged frame100).wellFormed = false := by decide +kernel
theorem test_illFormed_command : (Instr.receiveCommand frame100).wellFormed = false := by decide +kernel
theorem test_illFormed_reply : (Instr.receiveReply frame100).wellFormed = false := by decide +kernel
theorem test_illFormed_enumerate : (Instr.receiveEnumerate (sealed [4#8, 1#8])).wellFormed = false := by decide +kernel
theorem test_illFormed_foreign : (Instr.receiveForeign frame100).wellFormed = false := by decide +kernel
theorem test_illFormed_position : (Instr.replyExpired 6).wellFormed = false := by decide
theorem test_wellFormed_sample : (Instr.receiveSample frame100).wellFormed = true := by decide +kernel

/-! ### The manual's own examples -/

/-- R10: the bytes 00h 00h F0h F1h are 0000F0F1h. -/
theorem test_actionValue : wordAt [0x00#8, 0x00#8, 0xF0#8, 0xF1#8] 0 = 0x0000F0F1#32 := by decide

/-- R50: the five deltas from P = 10 for M = 100, and the one through 0. -/
theorem test_deltas :
    [40, 60, 61, 95, 10].map (({ axis0 with modulus := 100 } : AxisDef).delta 10) = [30, 50, -49, -15, 0]
      ∧ axis0.delta 4090 24 = 30 := by decide

/-- R66: the examples of the effective position. -/
theorem test_effective :
    axis0.effective tracking0 4 = 24
      ∧ axis0.effective { tracking0 with position := 20, velocity := -30 } 2 = 4056
      ∧ ({ axis0 with modulus := 360 } : AxisDef).effective { tracking0 with position := 100, velocity := 170 } 15 = 130
      ∧ axis1.effective { tracking0 with position := 2147483600, velocity := 20 } 3 = 2147483647
      ∧ axis1.effective { tracking0 with position := -5000, velocity := -100 } 0 = -5000 := by decide

/-- R79: a wrap window and a LINEAR window at their ends. -/
theorem test_covers :
    [4000, 4095, 0, 96, 3999].map (({ on := 4000#32, off := 96#32 } : Window).covers .rotary)
        = [true, true, true, false, false]
      ∧ [-500, 499, 500].map (({ on := 0xFFFFFE0C#32, off := 0x000001F4#32 } : Window).covers .linear)
        = [true, true, false] := by decide

/-- The re-homed axis of section 3.8, its frames and its records. -/
def rehomed : AxisDef := { source := 21#8, kind := .linear, modulus := 0, stale := 3#8, maxStep := 1000 }

def rehomedFrame (cycle : Half) (x : Word) : Frame := sampleFrame cycle 0#8 [(21#8, 1#8, x)]

def rehomedRecord (state : AxisState) (position : Int) (missed : Byte) : AxisRecord where
  state := state
  position := position
  velocity := 200
  direction := .forward
  missed := missed
  lastGood := some 900#16

/-- R65: cycles 901 to 903, each a miss by its step. -/
theorem test_rehomedMisses :
    rehomed.sample (rehomedFrame 901#16 0#32) (rehomedRecord .tracking 50000 0#8) = .implausible 50000
      ∧ rehomed.updated (rehomedFrame 901#16 0#32) (rehomedRecord .tracking 50000 0#8) = rehomedRecord .coasting 50200 1#8
      ∧ rehomed.updated (rehomedFrame 902#16 200#32) (rehomedRecord .coasting 50200 1#8) = rehomedRecord .coasting 50400 2#8
      ∧ rehomed.updated (rehomedFrame 903#16 400#32) (rehomedRecord .coasting 50400 2#8) = rehomedRecord .lost 50400 3#8 := by
  decide +kernel

/-- R65: cycles 904 and 905, good from the new position. -/
theorem test_rehomedRecovers :
    rehomed.updated (rehomedFrame 904#16 600#32) (rehomedRecord .lost 50400 3#8)
        = { state := .acquiring, position := 600, velocity := 0, direction := .unknown, missed := 0#8
            lastGood := some 904#16 }
      ∧ rehomed.updated (rehomedFrame 905#16 800#32) { state := .acquiring, position := 600, velocity := 0
                                                       direction := .unknown, missed := 0#8, lastGood := some 904#16 }
        = { rehomedRecord .tracking 800 0#8 with lastGood := some 905#16 } := by decide +kernel

/-- The bank of section 5.4: track 7 breaks WINDOW_ORDER on window 3; without that window, track 9 clashes with
track 2. -/
def bankOf54 (l7 : List Window) : Bank :=
  let off9 : TrackDef := { trackOn 9 0 with enabled := false }
  ((((((((Bank.empty.setAxis 0 (some axis0)).setAxis 1 (some axis1)).setTrack 2 (trackOn 0 0)).setList 2
      [{ on := 100#32, off := 300#32 }, { on := 500#32, off := 700#32 }, { on := 4000#32, off := 96#32 }]).setTrack 5
      off9).setList 5 [{ on := 10#32, off := 10#32 }]).setTrack 7 (trackOn 1 1)).setList 7 l7).setTrack 9 (trackOn 0 0)

theorem test_validation :
    (bankOf54 [{ on := 0xFFFFFE0C#32, off := 500#32 }, { on := 1000#32, off := 2000#32 },
        { on := 3000#32, off := 4000#32 }, { on := 3500#32, off := 5000#32 }]).validate
        = some { code := .windowOrder, subject := 7, detail := 3 }
      ∧ (bankOf54 [{ on := 0xFFFFFE0C#32, off := 500#32 }]).validate
        = some { code := .trackBitClash, subject := 9, detail := 2 }
      ∧ bank0.validate = none := by decide +kernel

/-- Section 9.5: the status word 67810509h, and 63810509h with two enables cleared. -/
theorem test_statusWord :
    let s : State := { State.reset with
      rpu := { Rpu.reset with mode := .running, address := 9#8 }
      se := { Se.reset with
        selector := .b, generation := 261#16, axisRecords := Se.reset.axisRecords.set 3 (.cleared .lost) }
      mu := { Mu.reset with
        fault := some { report := axisLostReport 3, cycle := 0#16, further := 0#8 }
        latches := { fault := true, axisLost := true, commitDone := false, linkChange := false } } }
    s.statusWord = 0x67810509#32
      ∧ State.statusWord { s with mu := { s.mu with
          mask := { fault := false, axisLost := false, commitDone := true, linkChange := true } } }
        = 0x63810509#32 := by decide +kernel

/-- A broadcast COMMIT whose validation stops at window 3 of track 7 reports detail 2051 (section 1.6). -/
theorem test_broadcastDetail : ErrorCode.windowOrder.code * 256 + 3 % 256 = 2051 := by decide

/-- Cycle 100 at `working`: axis 0 goes on, axis 1 enters LOST, track 2 comes ON (E = 4030 + 4 * 30 = 54 modulo 4096),
the owned bit is set, and the status slot shows the frame's own outcome. -/
theorem test_evaluation :
    let t := after (exec .sampleEvaluation (evaluating working frame100))
    let slots := [(20#8, 1#8, 4030#32), (40#8, 2#8, 0xF1#32), (50#8, 3#8, t.statusWord)]
    t.rpu.forward = [{ frame := sampleFrame 100#16 0#8 slots, state := .ready }]
      ∧ t.statusWord = 0x47810005#32
      ∧ t.se.axisRecords[0] = { tracking0 with position := 4030, lastGood := some 100#16 }
      ∧ t.se.axisRecords[1].state = .lost ∧ t.se.trackRecords[2] = { output := true, stretchCounter := 2#8 }
      ∧ t.mu.counters[3] = 1#16 := by decide +kernel

/-- A command comes in on the line: start delimiter, bytes, end delimiter, and IDENTIFY is answered. -/
theorem test_line :
    let s : State := { station with line := [.data 9#8, .startDelimiter, .data 2#8, .endDelimiter] }
    let t := after (step (after (step (after (step (after (step s)))))))
    t.pending = [.receiveForeign [2#8]] ∧ t.rpu.receiving = none ∧ t.line = [] := by decide +kernel

/-- A frame that finds the forward queue full, with the MU taking the increment at once and the report later. -/
def dropping : State :=
  { station with
    rpu := { station.rpu with forward := List.replicate 2 { frame := frame100, state := .ready } }
    lag := [0, 9] }

/-- R193: the read between the two sees the increment and no report; the next read sees both. -/
theorem test_countBeforeReport :
    let t := after (exec (.receiveForeign [9#8]) dropping)
    let read := after (exec .readCounters { holding t (entry 0x42#8 [0#32]) .none with lag := [9, 9] })
    t.mu.counters[4] = 1#16 ∧ t.mu.fault = none
      ∧ t.onWay = [{ notices := [.fault { code := .forwardDrop, subject := 0#8, detail := 9#16 }], stage := .split }]
      ∧ read.mu.fault = none
      ∧ (lastReply (exec .readFault { holding read (entry 0x40#8 []) .none with lag := [9] })).map (fun r => r.2.take 4)
        = some [1#32, 6#32, 0#32, 9#32] := by decide +kernel

/-- R198, R202: a status word composed right after the start-up shows LINK_CHANGE and the summary, whatever is held
back. -/
theorem test_startUpShows :
    let t := after (exec (.lineAcquired .inPort) { State.reset with lag := [9, 9] })
    (lastReply (exec .readStatus (holding t (entry 0x02#8 []) .none))).map (fun r => r.2[0]?)
      = some (some 0x04200000#32) := by decide +kernel

/-- R195: the report of a line acquired again is on its way like any other. -/
theorem test_lineAcquiredAgain :
    let s : State := { station with rpu := { station.rpu with linkOut := .down }, lag := [9] }
    let t := after (exec (.lineAcquired .outPort) s)
    t.rpu.linkOut = .up ∧ t.rpu.startOut = false ∧ t.mu = s.mu ∧ t.onWay = [.whole [.latch .linkChange]] := by
  decide +kernel

/-- R164: the increments of a READ_COUNTERS and of a command behind it are on their way; word 7 includes its own. -/
theorem test_countIncludesItself :
    let t := after (exec (.receiveCommand (commandFrame 5#8 8#16 0x42#8 [0#32])) { station with lag := [9] })
    let u := after (exec (.receiveCommand (commandFrame 5#8 9#16 0x01#8 [])) { t with lag := [9] })
    let read := exec .readCounters { u with lag := [9] }
    t.mu.counters[7] = 0#16 ∧ u.onWay.length = 2 ∧ (after read).onWay.length = 1
      ∧ (lastReply read).map (fun r => r.2[7]?) = some (some 1#32) := by decide +kernel

/-- R171: the increment of a command accepted before the MU's reset does not survive it; R187: another may. -/
theorem test_acceptedBeforeReset :
    let late : List Event := [.whole [.count .commandsAccepted], .whole [.count .repliesSent]]
    let s : State := holding { station with onWay := late, lag := [9] } (entry 0x54#8 [1#32]) (.resetting .all .mu)
    (after (exec (.seTableReset .mu) s)).onWay = [.whole [.count .repliesSent]] := by decide +kernel

/-- R190: a valid SAMPLE frame that completes reception while the report is on its way gives the record its cycle. -/
theorem test_reportAfterNextFrame :
    let t := after (exec (.receiveForeign [9#8]) dropping)
    let room : State := { t with rpu := { t.rpu with forward := [] }, lag := [9] }
    ((after (exec (.receiveSample frame100) room)).deliver.mu.fault.map FaultRecord.cycle) = some 100#16
      ∧ (t.deliver.mu.fault.map FaultRecord.cycle) = some 99#16 := by decide +kernel

/-- BYPASS's two requests behind its mode, one by one and together: the pending commit is gone before the reply is
built. -/
theorem test_commitDrop :
    let o : CommitOrder := { mode := .atCycle, target := 7#16, origin := .unicast }
    let s : State := holding { station with se := { station.se with commit := .pending o } } (entry 0x51#8 []) .dropping
    let t := after (exec .commitDrop { s with pauses := [true] })
    t.se.commit = .none ∧ t.cp.flight = .dropped (some o) ∧ t.iq.replies = []
      ∧ lastReply (exec .commitDrop t) = some (0#8, [1#32, 1#32, 7#32])
      ∧ lastReply (exec .commitDrop s) = some (0#8, [1#32, 1#32, 7#32]) := by decide +kernel

/-- RELEASE_ADDRESS's two requests one by one: between them a command still comes in under the old address, and its
execution waits. -/
theorem test_releaseAddress :
    let t := after (exec .releaseAddress { holding station (entry 0x53#8 []) .none with pauses := [true] })
    let u := after (exec (.receiveCommand (commandFrame 5#8 8#16 0x01#8 [])) t)
    let v := after (exec .releaseAddress u)
    t.rpu.address = 5#8 ∧ t.cp.queue = [] ∧ lastReply (.next t) = some (0#8, [])
      ∧ u.cp.queue.length = 1 ∧ after (exec .identify u) = u
      ∧ v.rpu.address = 0#8 ∧ v.rpu.mode = .unaddressed
      ∧ lastReply (exec .identify v) = some (0#8, identityWords) := by
  decide +kernel

theorem test_identify : lastReply (exec .identify (holding station (entry 0x01#8 []) .none))
    = some (0#8, identityWords) := by decide +kernel

theorem test_unknown : lastReply (exec .unknownCommand (holding station (entry 0x03#8 []) .none))
    = some (2#8, []) := by decide +kernel

theorem test_badArgument :
    lastReply (exec .readAxis (holding station (entry 0x30#8 [0x103#32]) .none)) = some (3#8, [0#32]) := by
  decide +kernel

theorem test_defineAxis :
    let t := after (exec .defineAxis (holding station
      (entry 0x10#8 [15#32, 20#32, 1#32, 0x80000000#32, 255#32, 0x40000000#32]) .none))
    t.se.bankB.axes[15] =
        some ({ source := 20#8, kind := .rotary, modulus := 2147483648, stale := 255#8, maxStep := 1073741824 } : AxisDef)
      ∧ t.se.bankA = Bank.empty := by decide +kernel

theorem test_loadWindows :
    lastReply (exec .loadWindows (holding station (entry 0x14#8 [31#32, 0#32, 1#32, 2#32, 1#32, 2#32, 3#32, 4#32])
      .none)) = some (0#8, [2#32, 254#32])
    ∧ lastReply (exec .loadWindows (holding station (entry 0x14#8 [31#32, 1#32, 1#32, 1#32, 1#32, 2#32]) .none))
      = some (3#8, [1#32]) := by decide +kernel

theorem test_commit :
    let t := after (exec .commit (holding working (entry 0x20#8 [1#32, 100#32]) .none))
    t.se.commit = .validating { mode := .atCycle, target := 100#16, origin := .unicast }
      ∧ lastReply (exec .validationComplete t) = some (0#8, [1#32, 100#32, 0#32])
      ∧ lastReply (exec .commit (holding working (entry 0x20#8 [1#32, 99#32]) .none)) = some (7#8, []) := by
  decide +kernel

theorem test_enumerate :
    let t := after (exec (.receiveEnumerate (sealed [4#8, 250#8, 255#8]))
      { State.reset with rpu := { Rpu.reset with linkIn := .up } })
    t.rpu.address = 250#8 ∧ t.rpu.mode = .running
      ∧ t.rpu.forward = [{ frame := sealed [4#8, 251#8, 255#8], state := .ready }] := by decide +kernel

/-! ### Witnesses: the hypotheses of each statement can be met together, clause by clause -/

/-- A valid SAMPLE frame without slots, and a malformed one that declares 201. -/
def sample0 : Frame := sampleFrame 100#16 0#8 []
def sampleBad : Frame := sealed [1#8, 0#8, 0#8, 100#8, 0#8, 201#8]

/-- Damaged frames of kind byte 01h and of another. -/
def damaged1 : Frame := [1#8, 0#8, 0#8, 0#8, 0#8]
def damaged2 : Frame := [2#8, 0#8, 0#8, 0#8, 0#8]

/-- IDENTIFY for the part, with tag 7 and with tag 0, and the shortest malformed COMMAND with an address. -/
def command7 : Frame := commandFrame 5#8 7#16 0x01#8 []
def command0 : Frame := commandFrame 5#8 0#16 0x01#8 []
def command6 : Frame := sealed [2#8, 5#8]

def identify7 : CommandEntry := entryOf command7 true .unicast

/-- A reply of the part to station 1. -/
def reply5 : Frame := replyFrame (entry 0x01#8 []) 5#8 .ok [1#32]

/-- The station with a retry table. -/
def retrying (l : List RetryEntry) : State := { station with cp := { Cp.reset with retry := l } }

def done (source : Byte) : RetryEntry := { source := source, tag := 1#16, cached := some reply5 }
def busy (source : Byte) : RetryEntry := { source := source, tag := 1#16, cached := none }

/-- The station with its IQ full. -/
def noReplyPlace : State := { station with iq := { station.iq with reserved := 6 } }

/-- The station with a full forward queue. -/
def noForwardPlace : State :=
  { station with rpu := { station.rpu with forward := List.replicate 2 { frame := sample0, state := .ready } } }

theorem witness_idle :
    (State.reset.pending = [] ∧ { State.reset with line := [.broken] }.line = .broken :: [])
      ∧ (State.reset.line = [] ∧ ∀ r, r ∈ [({ frame := reply5, remaining := 1 } : ReplyEntry)] → r.remaining ≠ 0)
      ∧ ([({ frame := reply5, remaining := 0 } : ReplyEntry)][0]? = some { frame := reply5, remaining := 0 }
        ∧ ∀ j x, j < 0 → [({ frame := reply5, remaining := 0 } : ReplyEntry)][j]? = some x → x.remaining ≠ 0) :=
  ⟨⟨rfl, rfl⟩, ⟨rfl, by simp⟩, rfl, fun _ _ h => absurd h (Nat.not_lt_zero _)⟩

/-- IN before a start delimiter, after it, and with the receive buffer at and below its end. -/
theorem witness_symbols :
    station.resetHeld = false ∧ station.rpu.linkIn = .up ∧ station.rpu.receiving = none
      ∧ State.reset.rpu.linkIn = .down
      ∧ { station.rpu with receiving := some (List.replicate 1535 0#8) }.receiving = some (List.replicate 1535 0#8)
      ∧ (List.replicate 1535 0#8).length < 1536 ∧ 1536 ≤ (List.replicate 1536 0#8).length :=
  ⟨rfl, rfl, rfl, rfl, rfl, by rw [List.length_replicate]; omega, by rw [List.length_replicate]⟩

/-- The entry of a malformed COMMAND at each end of the presence of a field. -/
theorem witness_entries :
    ([7, 8, 9, 10, 11].map (fun n => ((entryOf (List.replicate n 1#8) false .unicast).tag.isSome,
        (entryOf (List.replicate n 1#8) false .unicast).code.isSome,
        (entryOf (List.replicate n 1#8) false .unicast).argCount.isSome)))
      = [(false, false, false), (false, false, false), (true, false, false), (true, true, false), (true, true, true)]
      ∧ (entryOf (commandFrame 5#8 7#16 0x30#8 [1#32]) true .unicast).args = [1#32] := by decide +kernel

/-- Notices on their way that `lag` lets be taken, holds back, or leaves to be taken together. -/
theorem witness_lag :
    let e : Event := { notices := [.count .rxAborts, .latch .linkChange], stage := .whole }
    let s : State := { station with onWay := [e], lag := [1] }
    s.resetHeld = false ∧ s.onWay ≠ [] ∧ s.lag = 1 :: [] ∧ s.onWay = [] ++ e :: []
      ∧ e.notices = [.count .rxAborts] ++ .latch .linkChange :: []
      ∧ 1 = (([] : List Event).flatMap Event.notices).length + [Notice.count .rxAborts].length
      ∧ (s.onWay.flatMap Event.notices).length ≤ 2 ∧ State.reset.lag = [] ∧ State.reset.onWay = []
      ∧ State.reset.pauses.head? ≠ some true ∧ { station with pauses := [true] }.pauses.head? = some true := by
  decide +kernel

/-- Five bytes is the shortest frame with a kind: one sound, one damaged. -/
theorem witness_crc : (sealed [9#8]).length = 5 ∧ classify (sealed [9#8]) = .foreign ∧ damaged1.length = 5
    ∧ classify damaged1 = .damaged := by decide +kernel

/-- A frame of each class, at the ends of the lengths and counts. -/
theorem witness_classes :
    classify [0#8, 0#8, 0#8, 0#8] = .noKind ∧ classify (sealed [0#8]) = .foreign ∧ classify (sealed [255#8]) = .foreign
      ∧ classify sample0 = .sample true ∧ classify sampleBad = .sample false
      ∧ classify command7 = .command true ∧ classify command6 = .command false
      ∧ classify reply5 = .reply true ∧ classify (sealed [3#8]) = .reply false
      ∧ classify (sealed [4#8, 250#8, 0#8]) = .enumerate true ∧ classify (sealed [4#8]) = .enumerate false := by
  decide +kernel

/-- R5 at its upper ends: 200 slots, 64 argument words, 32 result words, and one more of each. -/
theorem witness_longest :
    sampleLengthOk ([1#8, 0#8, 0#8, 0#8, 0#8, 200#8] ++ List.replicate 1204 0#8) = true
      ∧ sampleLengthOk ([1#8, 0#8, 0#8, 0#8, 0#8, 201#8] ++ List.replicate 1210 0#8) = false
      ∧ commandLengthOk ([2#8, 0#8, 0#8, 0#8, 0#8, 0#8, 64#8] ++ List.replicate 260 0#8) = true
      ∧ commandLengthOk ([2#8, 0#8, 0#8, 0#8, 0#8, 0#8, 65#8] ++ List.replicate 264 0#8) = false
      ∧ replyLengthOk ([3#8, 0#8, 0#8, 0#8, 0#8, 0#8, 0#8, 32#8] ++ List.replicate 132 0#8) = true
      ∧ replyLengthOk ([3#8, 0#8, 0#8, 0#8, 0#8, 0#8, 0#8, 33#8] ++ List.replicate 136 0#8) = false := by decide +kernel

theorem witness_replyWords : (List.replicate 32 0#32).length ≤ 32 ∧ ([] : List Word).length ≤ 32 := by decide

theorem witness_cycles : atOrAfter 32767#16 0#16 = true ∧ atOrAfter 32768#16 0#16 = false
    ∧ strictlyAhead 1#16 0#16 = true ∧ strictlyAhead 32767#16 0#16 = true ∧ strictlyAhead 32768#16 0#16 = false
    ∧ strictlyAhead 0#16 0#16 = false ∧ findSlot frame100 50#8 = some 18 ∧ findSlot frame100 51#8 = none := by
  decide +kernel

theorem witness_heldPin : { station with resetHeld := true }.resetHeld = true ∧ Instr.identify ≠ .resetPinAsserted
    ∧ Instr.identify ≠ .resetPinReleased := by decide

theorem witness_lines : State.reset.resetHeld = false ∧ State.reset.rpu.linkIn = .down ∧ State.reset.rpu.linkOut = .down
    ∧ State.reset.rpu.startIn = true ∧ State.reset.rpu.startOut = true
    ∧ station.resetHeld = false ∧ station.rpu.linkIn = .up ∧ station.rpu.linkOut = .up
    ∧ (let again : Rpu := { station.rpu with linkIn := .down, linkOut := .down }
      again.linkIn = .down ∧ again.startIn = false ∧ again.linkOut = .down ∧ again.startOut = false)
    ∧ { station.rpu with receiving := some [] }.receiving = some [] := by decide

theorem arrives_station (f : Frame) (h : f.length ≤ 1536) : Arrives station f := ⟨rfl, rfl, h⟩

theorem witness_forwardDrop :
    Arrives noForwardPlace sample0 ∧ 2 ≤ noForwardPlace.rpu.forward.length
      ∧ (∀ v, classify sample0 = .command v → ¬ ToPart noForwardPlace sample0)
      ∧ ¬ (classify sample0 = .reply true ∧ byteAt sample0 2 = noForwardPlace.rpu.address
        ∧ noForwardPlace.rpu.address ≠ 0#8) := by
  refine ⟨⟨rfl, rfl, by decide +kernel⟩, by decide, fun v h => absurd h ?_, by decide +kernel⟩
  cases v <;> decide +kernel

/-- A COMMAND for another station is dropped by a full queue too. -/
theorem witness_forwardDropCommand (v : Bool) (_ : classify (commandFrame 6#8 7#16 0x01#8 []) = .command v) :
    ¬ ToPart noForwardPlace (commandFrame 6#8 7#16 0x01#8 []) :=
  fun h => absurd h.2.1 (by decide +kernel)

theorem witness_validSample : Arrives station sample0 ∧ HasRoom station ∧ classify sample0 = .sample true
    ∧ byteAt (sampleFrame 100#16 255#8 []) 4 = 255#8 :=
  ⟨arrives_station _ (by decide +kernel), by unfold HasRoom; decide, by decide +kernel, by decide +kernel⟩

theorem witness_lostSample :
    Arrives station sampleBad ∧ HasRoom station ∧ classify sampleBad = .sample false
      ∧ (Arrives station damaged1 ∧ classify damaged1 = .damaged ∧ byteAt damaged1 0 = 1#8)
      ∧ Arrives station damaged2 ∧ classify damaged2 = .damaged ∧ byteAt damaged2 0 ≠ 1#8 :=
  ⟨arrives_station _ (by decide +kernel), by unfold HasRoom; decide, by decide +kernel,
    ⟨arrives_station _ (by decide +kernel), by decide +kernel, by decide⟩, arrives_station _ (by decide +kernel),
    by decide +kernel, by decide⟩

theorem witness_replies :
    (Arrives station reply5 ∧ classify reply5 = .reply true ∧ byteAt reply5 2 = station.rpu.address
        ∧ station.rpu.address ≠ 0#8)
      ∧ (Arrives station (sealed [3#8]) ∧ classify (sealed [3#8]) = .reply false ∧ HasRoom station)
      ∧ byteAt (replyFrame (entry 1#8 []) 6#8 .ok []) 2 ≠ station.rpu.address :=
  ⟨⟨arrives_station _ (by decide +kernel), by decide +kernel, by decide +kernel, by decide⟩,
    ⟨arrives_station _ (by decide +kernel), by decide +kernel, by unfold HasRoom; decide⟩, by decide +kernel⟩

theorem witness_unknownFrames :
    (Arrives station [] ∧ classify [] = .noKind) ∧ (Arrives station (sealed [4#8]) ∧
      classify (sealed [4#8]) = .enumerate false)
      ∧ Arrives station (sealed [5#8]) ∧ classify (sealed [5#8]) = .foreign :=
  ⟨⟨arrives_station _ (by decide), by decide⟩, ⟨arrives_station _ (by decide +kernel), by decide +kernel⟩,
    arrives_station _ (by decide +kernel), by decide +kernel⟩

/-- The part UNADDRESSED meets the next addresses 1, 250, 0 and 251; addressed, any. -/
theorem witness_enumerate :
    ({ station.rpu with mode := .unaddressed }.mode = .unaddressed ∧ station.rpu.mode ≠ .unaddressed)
      ∧ (∀ a, a ∈ [0#8, 1#8, 250#8, 251#8] → classify (sealed [4#8, a, 0#8]) = .enumerate true
        ∧ byteAt (sealed [4#8, a, 0#8]) 1 = a ∧ (sealed [4#8, a, 0#8]).length ≤ 1536) := by decide +kernel

theorem toPart_command7 : ToPart station command7 := ⟨by decide +kernel, by decide +kernel, by decide⟩

/-- Acceptance: tag 0; a new source in a table with a place; a source with another tag; a full table whose second
entry is the least recent one that is DONE. -/
theorem witness_accepted :
    (Arrives station command7 ∧ classify command7 = .command true ∧ ToPart station command7 ∧ command7.length ≠ 6
        ∧ station.cp.queue.length < 4 ∧ station.iq.replies.length + station.iq.reserved < 6)
      ∧ ((entryOf command0 true .unicast).tagValue = 0#16 ∧ identify7.tagValue ≠ 0#16)
      ∧ (∀ r, r ∈ [busy 1#8] → r.source = identify7.source → r.tag ≠ identify7.tagValue)
      ∧ (∀ r, r ∈ [busy 2#8, busy 3#8, busy 4#8] → r.source ≠ identify7.source)
      ∧ (∀ r, r ∈ [busy 2#8, done 3#8, busy 4#8, busy 5#8] → r.source ≠ identify7.source)
      ∧ (∀ x, x ∈ [busy 2#8] → x.cached = none) ∧ (done 3#8).cached ≠ none :=
  ⟨⟨arrives_station _ (by decide +kernel), by decide +kernel, toPart_command7, by decide +kernel, by decide, by decide⟩,
    by decide +kernel, by decide +kernel, by decide +kernel, by decide +kernel, by decide +kernel, by decide +kernel⟩

/-- A duplicate of an entry behind another source's, IN_PROGRESS and DONE, with and without a place in the IQ. -/
theorem witness_duplicates :
    identify7.tagValue ≠ 0#16 ∧ identify7.source = 1#8 ∧ identify7.tagValue = 7#16
      ∧ (∀ x, x ∈ [done 2#8] → x.source ≠ identify7.source)
      ∧ { busy 1#8 with tag := 7#16 }.tag = identify7.tagValue ∧ (done 1#8).cached = some reply5
      ∧ station.iq.replies.length + station.iq.reserved < 6
      ∧ 6 ≤ noReplyPlace.iq.replies.length + noReplyPlace.iq.reserved := by decide +kernel

theorem witness_discards :
    (Arrives station command6 ∧ classify command6 = .command false ∧ ToPart station command6 ∧ command6.length = 6)
      ∧ (Arrives noReplyPlace command7 ∧ ToPart noReplyPlace command7 ∧ command7.length ≠ 6
        ∧ (∀ r, r ∈ noReplyPlace.cp.retry → r.source = identify7.source → r.tag ≠ identify7.tagValue)
        ∧ 6 ≤ noReplyPlace.iq.replies.length + noReplyPlace.iq.reserved)
      ∧ 4 ≤ (List.replicate 4 (entry 0x01#8 [])).length :=
  ⟨⟨arrives_station _ (by decide +kernel), by decide +kernel, ⟨by decide +kernel, by decide +kernel, by decide⟩,
      by decide +kernel⟩,
    ⟨⟨rfl, rfl, by decide +kernel⟩, ⟨by decide +kernel, by decide +kernel, by decide⟩, by decide +kernel,
      by decide +kernel, by decide⟩, by decide⟩

theorem witness_broadcasts :
    ¬ ToPart station (commandFrame 255#8 0#16 0x21#8 [])
      ∧ (∀ c, c ∈ [(0x20#8, [0#32, 0#32]), (0x21#8, []), (0x54#8, [0#32]), (0x54#8, [1#32]), (0x01#8, [])] →
        classify (commandFrame 255#8 0#16 c.1 c.2) = .command true
          ∧ byteAt (commandFrame 255#8 0#16 c.1 c.2) 1 = 255#8 ∧ byteAt (commandFrame 255#8 0#16 c.1 c.2) 5 = c.1
          ∧ (entryOf (commandFrame 255#8 0#16 c.1 c.2) true .broadcast).args = c.2)
      ∧ classify (sealed [2#8, 255#8]) = .command false
      ∧ byteAt (commandFrame 6#8 7#16 0x01#8 []) 1 ≠ 255#8 :=
  ⟨fun h => absurd h.2.1 (by decide +kernel), by decide +kernel, by decide +kernel, by decide +kernel⟩

/-- The entry of the command at the head, one of another tag, and one already DONE. -/
theorem witness_cached :
    [({ busy 1#8 with tag := 7#16 } : RetryEntry), busy 2#8, done 3#8][0]? = some { busy 1#8 with tag := 7#16 }
      ∧ (entry 0x01#8 []).tag.getD 0#16 = 7#16
      ∧ setAgain (entry 0x01#8 []) [entry 0x02#8 []] = true ∧ setAgain (entry 0x01#8 []) [] = false := by decide +kernel

/-- One command for each general refusal, at the ends of the ranges. -/
theorem witness_refusals :
    { entry 0x01#8 [] with malformed := true }.malformed = true ∧ Instr.identify ∈ rowOf 0x01#8
      ∧ Instr.unknownCommand ∈ rowOf 0x03#8 ∧ Instr.resetAll ∈ rowOf 0x54#8
      ∧ 1 ∉ countsOf 0x01#8 ∧ 38 ∉ countsOf 0x14#8 ∧ 7 ∉ countsOf 0x14#8 ∧ 36 ∈ countsOf 0x14#8 := by decide +kernel

/-- Argument words at the ends of their ranges and one beyond. -/
theorem witness_ranges :
    ¬ InRange 0x30#8 [16#32] 0 ∧ ¬ InRange 0x10#8 [15#32, 255#32, 1#32, 1#32, 255#32, 1#32] 3
      ∧ (∀ k, k < 3 → InRange 0x10#8 [15#32, 255#32, 1#32, 1#32, 255#32, 1#32] k)
      ∧ ∀ j, InRange 0x42#8 [1#32] j := by
  refine ⟨fun h => absurd (h _ _ rfl rfl).2 (by decide), fun h => absurd (h _ _ rfl rfl).1 (by decide), ?_, ?_⟩
  · intro k hk w r hw hr
    match k, hk with
    | 0, _ => cases hw; cases hr; decide
    | 1, _ => cases hw; cases hr; decide
    | 2, _ => cases hw; cases hr; decide
  · intro j w r hw hr
    match j with
    | 0 => cases hw; cases hr; decide
    | _ + 1 => cases hw

theorem witness_arbiter :
    (noForwardPlace.rpu.arbiter = .idle ∧ noForwardPlace.rpu.linkOut = .up
        ∧ noForwardPlace.rpu.forward = { frame := sample0, state := .ready } :: [{ frame := sample0, state := .ready }])
      ∧ (station.rpu.forward = [] ∧ station.iq.hold = 0#8
        ∧ { station.iq with replies := [{ frame := reply5, remaining := 1 }] }.replies
          = { frame := reply5, remaining := 1 } :: [])
      ∧ station.rpu.readyHead = none ∧ station.iq.replies = []
      ∧ { noForwardPlace.rpu with linkOut := .down }.linkOut = .down
      ∧ { noForwardPlace.rpu with arbiter := .sendingForward }.arbiter = .sendingForward
      ∧ { station.rpu with arbiter := .sendingReply reply5 }.arbiter = .sendingReply reply5 :=
  ⟨⟨rfl, rfl, rfl⟩, ⟨rfl, rfl, rfl⟩, rfl, rfl, rfl, rfl, rfl⟩

theorem witness_expired (a b r : ReplyEntry) :
    { station with iq := { station.iq with replies := [a] ++ r :: [b] } }.resetHeld = false
      ∧ { station with iq := { station.iq with replies := [a] ++ r :: [b] } }.iq.replies = [a] ++ r :: [b] := ⟨rfl, rfl⟩

/-- Every command with these arguments begins at `holding`, and the general refusals pass it: the arguments stand at
the ends of their ranges. -/
theorem witness_commands :
    Begins (holding station (entry 0x01#8 []) .none) (entry 0x01#8 []) [] ∧ Carries (entry 0x01#8 []) 0x01#8 []
      ∧ ∀ c, c ∈ [(0x01#8, []), (0x02#8, []), (0x10#8, [15#32, 255#32, 0#32, 9#32, 255#32, 1073741824#32]),
        (0x10#8, [0#32, 0#32, 1#32, 2#32, 1#32, 1#32]), (0x11#8, [15#32]),
        (0x12#8, [31#32, 1#32, 15#32, 255#32, 31#32, 1#32, 2#32, 15#32, 2#32, 255#32]), (0x13#8, [31#32]),
        (0x14#8, [31#32, 16#32, 1#32, 1#32, 0#32, 1#32]), (0x15#8, []), (0x16#8, []), (0x17#8, [256#32]),
        (0x20#8, [1#32, 65535#32]), (0x21#8, []), (0x30#8, [15#32]), (0x31#8, [31#32, 1#32]),
        (0x32#8, [31#32, 1#32, 16#32, 16#32]), (0x33#8, []), (0x40#8, []), (0x41#8, []), (0x42#8, [1#32]),
        (0x43#8, [1#32, 0#32, 1#32, 0#32]), (0x44#8, [0#32, 1#32, 0#32, 1#32]), (0x50#8, [255#32]), (0x51#8, []),
        (0x52#8, []), (0x53#8, []), (0x54#8, [0#32]), (0x54#8, [1#32])] → (entry c.1 c.2).refusal = none :=
  ⟨begins_holding _, carries_entry _ _, by decide +kernel⟩

/-- The states of the commit record, the modes and the waits that the statements about commands name. -/
theorem witness_commandStates :
    (station.se.commit = .none ∧ station.se.stagedOp = .idle ∧ station.rpu.mode = .running ∧ station.mu.fault = none)
      ∧ { station.se with commit := .pending { mode := .atCycle, target := 0#16, origin := .broadcast } }.commit ≠ .none
      ∧ { station.rpu with mode := .bypass }.mode = .bypass ∧ State.reset.rpu.mode ≠ .running
      ∧ (station.rpu.lastCycle = some 99#16 ∧ strictlyAhead 100#16 99#16 = true ∧ strictlyAhead 99#16 99#16 = false)
      ∧ (station.se.staged.validate = none
        ∧ (bankOf54 []).validate = some { code := .trackBitClash, subject := 9, detail := 2 })
      ∧ (∀ x, x ∈ [Flight.validating, .copying, .clearing, .dropping, .dropped none,
          .dropped (some { mode := .atCycle, target := 0#16, origin := .broadcast }), .releasing, .resuming .records, .resuming .mode,
          .resuming .reply, .resetting .tables .se, .resetting .all .se, .resetting .all .iq, .resetting .all .rpu,
          .resetting .all .mu, .resetting .all .reply] → (holding station (entry 0x01#8 []) x).cp.flight = x) := by
  decide +kernel

/-- A record held at its last further count, and counters at and below their ends. -/
theorem witness_faultHeld :
    (∃ x, (Mu.report Mu.reset (some 9#16) (axisLostReport 15)).fault = some x ∧ x.cycle = 9#16 ∧ x.further = 0#8)
      ∧ byteUp 254#8 = 255#8 ∧ byteUp 255#8 = 255#8 ∧ countUp 65534#16 = 65535#16 ∧ countUp 65535#16 = 65535#16 :=
  ⟨⟨_, rfl, rfl, rfl⟩, by decide, by decide, by decide, by decide⟩

/-- LOAD_WINDOWS: beyond the end; too long; no space; whole. -/
theorem witness_loads :
    (station.se.staged.lists[31].length < 1 ∧ 16 < max 16 (16 + 1))
      ∧ (0 ≤ station.se.staged.lists[31].length ∧ 16 ≤ 16 ∧ 15 + 0 < 16 ∧ 16 ≤ station.se.staged.free + 0) := by
  decide +kernel

/-- READ_WINDOWS at the list's end and beyond it. -/
theorem witness_readWindows : bank0.lists[2].length = 1 ∧ bank0.lists[3].length < 1 := by decide +kernel

/-- A bank broken in each of the three steps of the scan. -/
theorem witness_violations :
    ([[{ on := 5#32, off := 5#32 }], [{ on := 5#32, off := 4096#32 }],
        [{ on := 9#32, off := 5#32 }, { on := 6#32, off := 8#32 }]].map (fun l => (bank0.setList 2 l).validate))
        = [some { code := .windowEmpty, subject := 2, detail := 0 }, some { code := .windowRange, subject := 2, detail := 0 },
          some { code := .windowWrapMisplaced, subject := 2, detail := 0 }]
      ∧ (bank0.setAxis 3 (some axis0)).validate = some { code := .axisSlotClash, subject := 3, detail := 0 }
      ∧ { bank0 with statusSlot := some 21#8 }.validate = some { code := .slotRoleClash, subject := 21, detail := 1 }
      ∧ { bank0 with statusSlot := some 40#8 }.validate = some { code := .slotRoleClash, subject := 2, detail := 255 }
      ∧ (bank0.setTrack 0 (trackOn 9 5)).validate = some { code := .trackAxisUndefined, subject := 0, detail := 9 } := by
  decide +kernel

theorem witness_axisSums : (axis0.kind = .rotary ∧ 2 ≤ axis0.modulus ∧ (4095 : Int) < axis0.modulus ∧ 1 ≤ axis0.modulus)
    ∧ axis1.kind = .linear := by decide

/-- Frames that give axis 0 each outcome, at the ends of the step check and of the range. -/
theorem witness_samples :
    axis0.sample sample0 tracking0 = .absent
      ∧ axis0.sample (sampleFrame 100#16 0#8 [(20#8, 2#8, 0#32)]) tracking0 = .wrongType
      ∧ axis0.sample (sampleFrame 100#16 0#8 [(20#8, 1#8, 4096#32)]) tracking0 = .outOfRange
      ∧ axis0.sample (sampleFrame 100#16 0#8 [(20#8, 1#8, 4#32)]) tracking0 = .good 4
      ∧ axis0.sample (sampleFrame 100#16 0#8 [(20#8, 1#8, 5#32)]) tracking0 = .implausible 101
      ∧ axis0.sample (sampleFrame 100#16 0#8 [(20#8, 1#8, 5#32)]) (.cleared .lost) = .good 5
      ∧ axis1.sample (sampleFrame 100#16 0#8 [(21#8, 1#8, 0x80000000#32)]) (.cleared .waiting)
        = .good (-2147483648) := by decide +kernel

/-- A record in every state, consecutive or not, on its last miss or not. -/
theorem witness_records :
    tracking0.lastGood = some (cycleOf frame100 - 1#16) ∧ tracking0.lastGood ≠ some (cycleOf sample0 - 2#16)
      ∧ tracking0.missed.toNat < 255 ∧ tracking0.missed.toNat + 1 < axis0.stale.toNat
      ∧ axis0.stale.toNat ≤ { tracking0 with missed := 2#8 }.missed.toNat + 1
      ∧ (∀ a, a ∈ [AxisState.waiting, .acquiring, .tracking, .coasting, .lost] → { tracking0 with state := a }.state = a) := by
  decide +kernel

/-- The frame of `working` meets what the statements about one evaluation ask for. -/
theorem witness_evaluation :
    classify frame100 = .sample true ∧ (swapped working.se frame100).active.validate = none
      ∧ (swapped working.se frame100).active.statusSlot = some 50#8 ∧ findSlot frame100 50#8 = some 18
      ∧ byteAt frame100 19 = 0x03#8
      ∧ (working.se.active.axes[0] = some axis0 ∧ working.se.axisRecords[0].state ≠ .unbound
        ∧ working.se.active.axes[2] = none)
      ∧ ((trackOn 0 0).enabled = true ∧ working.se.active.tracks[2] = some (trackOn 0 0)
        ∧ working.se.active.axes[(trackOn 0 0).axis] = some axis0) ∧ working.se.active.tracks[3] = none
      ∧ working.onWay = [] ∧ working.lag = [] := by decide +kernel

theorem witness_owned : Owned working.se.active 40#8 :=
  ⟨2, trackOn 0 0, by decide +kernel, rfl⟩

/-- An owned bit, and one that no track owns. -/
theorem witness_ownedBits :
    findSlot frame100 40#8 = some 12 ∧ byteAt frame100 13 = 0x02#8
      ∧ working.se.active.enabledTrack 2 = some (trackOn 0 0)
      ∧ (trackOn 0 0).slot = 40#8 ∧ (trackOn 0 0).bit ≠ 31 := by decide +kernel

/-- The announcement that takes no axis into LOST, and the one that does. -/
theorem witness_lostSampleTaken :
    ({ station.rpu with handed := [.lost] }.handed = .lost :: [] ∧ station.se.lostByAnnouncement = [])
      ∧ working.se.lostByAnnouncement = [1] ∧ working.onWay = [] ∧ working.lag = [] := by decide +kernel

/-- The announcement at `working`: AXIS_LOST for axis 1, with the last cycle seen, and both latches. -/
theorem test_lostSample :
    let t := after (exec .lostSample { working with rpu := { working.rpu with handed := [.lost] } })
    t.mu.fault = some { report := { code := .axisLost, subject := 1#8, detail := 0#16 }, cycle := 99#16, further := 0#8 }
      ∧ t.mu.latches = { fault := true, axisLost := true, commitDone := false, linkChange := false }
      ∧ t.se.axisRecords[0].state = .coasting ∧ t.se.axisRecords[1].state = .lost := by decide +kernel

/-- A swap that is due at once, at its target, and not yet. -/
theorem witness_swaps :
    Commit.swapDue (.pending { mode := .immediate, target := 0#16, origin := .unicast }) 100#16 = true
      ∧ Commit.swapDue (.pending { mode := .atCycle, target := 100#16, origin := .unicast }) 100#16 = true
      ∧ Commit.swapDue (.pending { mode := .atCycle, target := 101#16, origin := .unicast }) 100#16 = false
      ∧ atOrAfter 100#16 101#16 = false := by decide

/-- The continuity table of section 5.7: kept, kept into LOST, another modulus, present, absent. -/
theorem witness_continuity :
    swappedAxis (some axis0) (some { axis0 with stale := 5#8, maxStep := 7 }) tracking0 = tracking0
      ∧ swappedAxis (some axis1) (some axis1) { tracking0 with state := .coasting, missed := 2#8 }
        = { tracking0 with state := .lost, missed := 2#8 }
      ∧ swappedAxis (some axis0) (some { axis0 with modulus := 8192 }) tracking0 = .cleared .waiting
      ∧ swappedAxis none (some axis1) (.cleared .unbound) = .cleared .waiting
      ∧ swappedAxis (some axis1) none tracking0 = .cleared .unbound
      ∧ trackContinues (some (trackOn 0 0)) (some { trackOn 0 0 with stretch := 1#8 }) = true
      ∧ trackContinues (some (trackOn 0 0)) (some { trackOn 0 0 with slot := 41#8 }) = false
      ∧ trackContinues (some (trackOn 0 0)) none = false := by decide

theorem witness_activeKept : exec .identify station = .next station ∧ Instr.identify ≠ .resetPinAsserted
    ∧ (∀ g, Instr.identify ≠ .seTableReset g) :=
  ⟨rfl, by decide, fun g => by cases g <;> decide⟩

/-- The laws that every step keeps, met together at the station, whose step answers a next state. -/
theorem witness_laws :
    Safety.Capacities station ∧ Safety.Forwarding station ∧ Safety.Addressing station
      ∧ Safety.ActiveValid station ∧ Safety.InFlight station ∧ Safety.Binding station ∧ Safety.Pools station
      ∧ Safety.Records station ∧ Safety.Retries station ∧ Safety.Replies station
      ∧ step station = .next station := by
  refine ⟨by unfold Safety.Capacities; decide, ⟨rfl, nofun⟩, ⟨by decide, by decide, nofun⟩,
    ⟨by decide +kernel, nofun, fun _ => nofun⟩, ⟨⟨nofun, nofun⟩, ⟨nofun, nofun⟩, ⟨nofun, nofun⟩, by decide, by decide⟩,
    by unfold Safety.Binding; decide +kernel, ⟨⟨by decide +kernel, by decide +kernel⟩, by decide +kernel, by decide +kernel⟩,
    ⟨?_, ?_, ?_⟩, ⟨by decide, nofun⟩, ⟨nofun, nofun, nofun⟩, rfl⟩ <;>
  · intro i d h
    simp [station, State.reset, Se.reset, Bank.empty, Se.active, Se.bank] at h

end Sys2Proof.Tests
end

/-!
PROOFS. Frames: byte order, the CRC, the classes of a frame, cycles and slots, the layout of a reply.
-/
namespace Sys2Proof.Proofs

open Sys2Proof.Machine Sys2Proof.Claims

/-! ### Bytes, halves and words (R1) -/

/-- A two-byte field is its two bytes one behind the other, the most significant first. -/
theorem halfAt_eq_append (f : Frame) (i : Nat) : halfAt f i = byteAt f i ++ byteAt f (i + 1) := by
  have h0 := (byteAt f i).isLt
  have h1 := (byteAt f (i + 1)).isLt
  apply BitVec.eq_of_toNat_eq
  rw [halfAt, BitVec.toNat_ofNat, BitVec.toNat_append, ← Nat.shiftLeft_add_eq_or_of_lt h1, Nat.shiftLeft_eq]
  omega

/-- A four-byte field is its four bytes one behind the other, the most significant first. -/
theorem wordAt_eq_append (f : Frame) (i : Nat) :
    wordAt f i = byteAt f i ++ byteAt f (i + 1) ++ byteAt f (i + 2) ++ byteAt f (i + 3) := by
  have h0 := (byteAt f i).isLt
  have h1 := (byteAt f (i + 1)).isLt
  have h2 := (byteAt f (i + 2)).isLt
  have h3 := (byteAt f (i + 3)).isLt
  apply BitVec.eq_of_toNat_eq
  rw [wordAt, BitVec.toNat_ofNat, BitVec.toNat_append, BitVec.toNat_append, BitVec.toNat_append,
    ← Nat.shiftLeft_add_eq_or_of_lt h1, ← Nat.shiftLeft_add_eq_or_of_lt h2, ← Nat.shiftLeft_add_eq_or_of_lt h3]
  simp only [Nat.shiftLeft_eq]
  omega

/-- The bytes of a word are its eight-bit groups, the most significant first. -/
theorem wordBytes_eq_extract (w : Word) :
    wordBytes w = [w.extractLsb' 24 8, w.extractLsb' 16 8, w.extractLsb' 8 8, w.extractLsb' 0 8] := by
  have group (k : Nat) : BitVec.ofNat 8 (w.toNat / 2 ^ k) = w.extractLsb' k 8 := by
    rw [← Nat.shiftRight_eq_div_pow]
    rfl
  simpa [wordBytes] using And.intro (group 24) (And.intro (group 16) (And.intro (group 8) (group 0)))

/-- Words written one behind the other read back at their places. -/
theorem wordAt_flatMap_wordBytes (words : List Word) (l : List Byte) (j : Nat) (w : Word) (h : words[j]? = some w) :
    wordAt (words.flatMap wordBytes ++ l) (4 * j) = w := by
  induction words generalizing j with
  | nil => simp at h
  | cons x rest ih =>
    rw [List.flatMap_cons, List.append_assoc]
    cases j with
    | zero =>
      obtain rfl : x = w := by simpa using h
      exact wordAt_wordBytes x _
    | succ j =>
      rw [show 4 * (j + 1) = (wordBytes x).length + 4 * j by rw [wordBytes_length]; omega, wordAt_append_right]
      exact ih j (by simpa using h)

@[simp] theorem flatMap_wordBytes_length (words : List Word) : (words.flatMap wordBytes).length = 4 * words.length := by
  induction words with
  | nil => rfl
  | cons x rest ih => rw [List.flatMap_cons, List.length_append, ih, wordBytes_length, List.length_cons]; omega

/-! ### The class of a frame (R3 to R5) -/

/-- The class of a frame whose CRC matches is told by its kind byte (R4, R5). -/
theorem classify_of_good_crc (f : Frame) (h : 5 ≤ f.length) (hc : crc (covered f) = heldCrc f) :
    classify f =
      if byteAt f 0 = 1#8 then .sample (sampleLengthOk f)
      else if byteAt f 0 = 2#8 then .command (commandLengthOk f)
      else if byteAt f 0 = 3#8 then .reply (replyLengthOk f)
      else if byteAt f 0 = 4#8 then .enumerate (enumerateLengthOk f)
      else .foreign := by
  unfold classify
  rw [if_neg (by omega), if_neg (by simpa using hc)]

/-- A frame with a kind byte is damaged exactly when its CRC does not match (R3). -/
theorem classify_eq_damaged_iff (f : Frame) (h : 5 ≤ f.length) :
    classify f = .damaged ↔ crc (covered f) ≠ heldCrc f := by
  constructor
  · intro hd hc
    rw [classify_of_good_crc f h hc] at hd
    split_ifs at hd
  · intro hc
    rw [classify, if_neg (by omega), if_pos hc]

/-- R5 for SAMPLE, in numbers. -/
theorem sampleLengthOk_iff (f : Frame) :
    sampleLengthOk f = true ↔ (byteAt f 5).toNat ≤ 200 ∧ f.length = 10 + 6 * (byteAt f 5).toNat := by
  rw [sampleLengthOk, Bool.and_eq_true, decide_eq_true_eq, beq_iff_eq]
  rfl

/-- R5 for COMMAND, in numbers. -/
theorem commandLengthOk_iff (f : Frame) :
    commandLengthOk f = true ↔ (byteAt f 6).toNat ≤ 64 ∧ f.length = 11 + 4 * (byteAt f 6).toNat := by
  simp [commandLengthOk]

/-- R5 for REPLY, in numbers. -/
theorem replyLengthOk_iff (f : Frame) :
    replyLengthOk f = true ↔ (byteAt f 7).toNat ≤ 32 ∧ f.length = 12 + 4 * (byteAt f 7).toNat := by
  simp [replyLengthOk]

/-- R5 for ENUMERATE, in numbers. -/
theorem enumerateLengthOk_iff (f : Frame) : enumerateLengthOk f = true ↔ f.length = 7 := by
  simp [enumerateLengthOk]

/-- What makes a frame a valid SAMPLE frame: a good CRC, the kind byte, and the length its slot count asks for. -/
theorem classify_eq_valid_sample_iff (f : Frame) :
    classify f = .sample true ↔
      crc (covered f) = heldCrc f ∧ byteAt f 0 = 1#8 ∧ slotCount f ≤ 200 ∧ f.length = 10 + 6 * slotCount f := by
  constructor
  · intro h
    unfold classify at h
    split_ifs at h with hl hc hk
    have hlen : sampleLengthOk f = true := by simpa using h
    exact ⟨by simpa using hc, hk, (sampleLengthOk_iff f).mp hlen⟩
  · rintro ⟨hc, hk, hlen⟩
    rw [classify_of_good_crc f (by omega) hc, if_pos hk, (sampleLengthOk_iff f).mpr hlen]

/-- Settles O4: each clause is the definition, the check value computed, or the byte order of a word. -/
theorem crcIsComputedAsStated : Obligations.CrcIsComputedAsStated := by
  refine ⟨fun bytes => rfl, by decide +kernel, fun f h => ?_, fun l => ?_⟩
  · rw [classify_eq_damaged_iff f h, heldCrc, wordAt_eq_append,
      show f.length - 4 + 1 = f.length - 3 by omega, show f.length - 4 + 2 = f.length - 2 by omega,
      show f.length - 4 + 3 = f.length - 1 by omega]
    rfl
  · rw [sealed, wordBytes_eq_extract]

/-- Settles O5: by the order of the tests in `classify`, each kind byte excluding the ones before it. -/
theorem frameFallsIntoOneClass : Obligations.FrameFallsIntoOneClass := by
  refine fun f => ⟨fun h => if_pos h, fun h hc => (classify_eq_damaged_iff f h).mpr hc, fun h hc => ?_⟩
  have hclass := classify_of_good_crc f h hc
  refine ⟨fun hk => ⟨_, ?_, sampleLengthOk_iff f⟩, fun hk => ⟨_, ?_, commandLengthOk_iff f⟩,
    fun hk => ⟨_, ?_, replyLengthOk_iff f⟩, fun hk => ⟨_, ?_, enumerateLengthOk_iff f⟩, fun hk => ?_⟩
  · simpa [hk] using hclass
  · simpa [hk] using hclass
  · simpa [hk] using hclass
  · simpa [hk] using hclass
  · rcases hk with hk | hk
    · simpa [hk] using hclass
    · have other (b : Byte) (hb : b.toNat < 5) : byteAt f 0 ≠ b := fun he => by rw [he] at hk; omega
      rw [hclass, if_neg (other 1#8 (by decide)), if_neg (other 2#8 (by decide)), if_neg (other 3#8 (by decide)),
        if_neg (other 4#8 (by decide))]

/-! ### Cycles and slots (R7, R9) -/

/-- A difference of cycles, taken modulo 65536. -/
theorem half_sub_toNat (a b : Half) : (a - b).toNat = (a.toNat + 65536 - b.toNat) % 65536 := by
  have ha := a.isLt
  have hb := b.isLt
  rw [BitVec.toNat_sub]
  omega

/-- The offset found for an id is that of its first slot in frame order (R9). -/
theorem findSlot_eq_some_iff (f : Frame) (id : Byte) (o : Nat) :
    findSlot f id = some o ↔
      ∃ i, i < slotCount f ∧ o = 6 + 6 * i ∧ byteAt f o = id ∧ ∀ j, j < i → byteAt f (6 + 6 * j) ≠ id := by
  constructor
  · intro h
    obtain ⟨i, hi, rfl, hid, hfirst⟩ := findSlot_some f id o h
    exact ⟨i, hi, rfl, hid, hfirst⟩
  · rintro ⟨i, hi, rfl, hid, hfirst⟩
    rw [findSlot, Option.map_eq_some_iff]
    refine ⟨i, List.find?_range_eq_some.mpr ⟨by simpa using hid, by simpa using hi, fun j hj => ?_⟩, rfl⟩
    simpa using hfirst j hj

/-- No offset is found exactly when no slot carries the id (R9). -/
theorem findSlot_eq_none_iff (f : Frame) (id : Byte) :
    findSlot f id = none ↔ ∀ i, i < slotCount f → byteAt f (6 + 6 * i) ≠ id := by
  refine ⟨findSlot_none f id, fun h => ?_⟩
  rw [findSlot, Option.map_eq_none_iff, List.find?_eq_none]
  intro i hi
  simpa using h i (List.mem_range.mp hi)

/-- Settles O6: the serial comparisons by arithmetic modulo 65536, the lookup by what `findSlot` finds. -/
theorem cyclesAndSlotsAreLookedUpAsStated : Obligations.CyclesAndSlotsAreLookedUpAsStated := by
  refine ⟨fun c t => ?_, fun t l => ?_, findSlot_eq_some_iff, findSlot_eq_none_iff⟩
  · rw [atOrAfter, decide_eq_true_eq, half_sub_toNat]
  · rw [strictlyAhead, Bool.and_eq_true, decide_eq_true_eq, decide_eq_true_eq, half_sub_toNat]

/-! ### The reply (R12, R136, Table 1-4) -/

/-- The eight bytes of a reply before its result words (Table 1-4). -/
def replyHeader (e : CommandEntry) (address : Byte) (status : Status) (words : List Word) : List Byte :=
  [3#8, e.source, address] ++ halfBytes e.tagValue ++ [e.codeValue, status.code, BitVec.ofNat 8 words.length]

/-- A reply is its header, its result words and their CRC. -/
theorem replyFrame_eq (e : CommandEntry) (address : Byte) (status : Status) (words : List Word) :
    replyFrame e address status words
      = replyHeader e address status words ++ (words.flatMap wordBytes
        ++ wordBytes (crc (replyHeader e address status words ++ words.flatMap wordBytes))) := by
  rw [← List.append_assoc]
  rfl

theorem replyFrame_length (e : CommandEntry) (address : Byte) (status : Status) (words : List Word) :
    (replyFrame e address status words).length = 12 + 4 * words.length := by
  simp [replyFrame_eq, replyHeader]
  omega

/-- The first eight bytes of a reply are those of its header. -/
theorem byteAt_replyFrame_header (e : CommandEntry) (address : Byte) (status : Status) (words : List Word) (k : Nat)
    (h : k < 8) : byteAt (replyFrame e address status words) k = byteAt (replyHeader e address status words) k := by
  rw [replyFrame_eq]
  exact byteAt_append_left _ _ _ (by simpa [replyHeader] using h)

/-- The result words of a reply stand behind its header. -/
theorem wordAt_replyFrame (e : CommandEntry) (address : Byte) (status : Status) (words : List Word) (j : Nat) (w : Word)
    (h : words[j]? = some w) : wordAt (replyFrame e address status words) (8 + 4 * j) = w := by
  rw [replyFrame_eq, show 8 + 4 * j = (replyHeader e address status words).length + 4 * j from rfl,
    wordAt_append_right]
  exact wordAt_flatMap_wordBytes words _ j w h

theorem replyFrame_count (e : CommandEntry) (address : Byte) (status : Status) (words : List Word)
    (h : words.length ≤ 32) : (byteAt (replyFrame e address status words) 7).toNat = words.length := by
  rw [byteAt_replyFrame_header _ _ _ _ _ (by omega)]
  show (BitVec.ofNat 8 words.length).toNat = _
  rw [BitVec.toNat_ofNat]
  omega

/-- A reply of up to 32 result words is a well-formed REPLY frame (R12, R136). -/
theorem classify_replyFrame (e : CommandEntry) (address : Byte) (status : Status) (words : List Word)
    (h : words.length ≤ 32) : classify (replyFrame e address status words) = .reply true := by
  have hlen := replyFrame_length e address status words
  have hkind : byteAt (replyFrame e address status words) 0 = 3#8 := byteAt_replyFrame_header _ _ _ _ _ (by omega)
  have hcrc : crc (covered (replyFrame e address status words)) = heldCrc (replyFrame e address status words) := by
    rw [replyFrame, covered_sealed, heldCrc_sealed]
  have hok : replyLengthOk (replyFrame e address status words) = true := by
    rw [replyLengthOk_iff, replyFrame_count _ _ _ _ h]
    exact ⟨h, hlen⟩
  rw [classify_of_good_crc _ (by omega) hcrc, hkind, hok]
  rfl

/-- Settles O7: the header byte by byte, the result words by their places, the class by the length. -/
theorem replyIsLaidOutByTable : Obligations.ReplyIsLaidOutByTable := by
  intro e address status words h
  have header := byteAt_replyFrame_header e address status words
  refine ⟨replyFrame_length e address status words, header 0 (by omega), header 1 (by omega), header 2 (by omega), ?_,
    header 5 (by omega), ?_, replyFrame_count e address status words h, wordAt_replyFrame e address status words,
    classify_replyFrame e address status words h⟩
  · have htag := halfAt_halfBytes e.tagValue []
    rw [halfAt_eq_append] at htag ⊢
    rw [header 3 (by omega), header 4 (by omega)]
    exact htag
  · rw [header 6 (by omega)]
    cases status <;> rfl

end Sys2Proof.Proofs

/-!
PROOFS. Commands: their codes, argument counts and ranges, and the general refusals that come before every command.
-/
namespace Sys2Proof.Proofs

open Sys2Proof.Machine Sys2Proof.Claims

/-! ### Command codes (Table 1-7) -/

/-- The code of a command: what `Command.ofByte` reads back (`ofByte_eq_some_iff`). -/
def codeOf (c : Command) : Byte :=
  match c with
  | .identify => 0x01
  | .readStatus => 0x02
  | .defineAxis => 0x10
  | .clearAxis => 0x11
  | .defineTrack => 0x12
  | .clearTrack => 0x13
  | .loadWindows => 0x14
  | .stageCopy => 0x15
  | .stageClear => 0x16
  | .defineStatusSlot => 0x17
  | .commit => 0x20
  | .cancelCommit => 0x21
  | .readAxis => 0x30
  | .readTrack => 0x31
  | .readWindows => 0x32
  | .readPool => 0x33
  | .readFault => 0x40
  | .clearFault => 0x41
  | .readCounters => 0x42
  | .setAttentionMask => 0x43
  | .ackAttention => 0x44
  | .setReplyLifetime => 0x50
  | .bypass => 0x51
  | .resume => 0x52
  | .releaseAddress => 0x53
  | .reset => 0x54

/-- A byte names a command exactly when it is its code (Table 1-7). -/
theorem ofByte_eq_some_iff (b : Byte) (c : Command) : Command.ofByte b = some c ↔ b = codeOf c := by
  constructor
  · intro h
    unfold Command.ofByte at h
    split at h <;> cases h <;> exact BitVec.eq_of_toNat_eq (by assumption)
  · rintro rfl
    cases c <;> rfl

/-- A byte that names no command has the row UNKNOWN_COMMAND alone (R135). -/
theorem rowOf_of_unknown (b : Byte) (h : Command.ofByte b = none) : rowOf b = [.unknownCommand] := by
  unfold rowOf
  split
  all_goals simp_all [Command.ofByte]

/-- UNKNOWN_COMMAND is no row of a command of Table 1-7. -/
theorem unknownCommand_notMem_rowOf (c : Command) : Instr.unknownCommand ∉ rowOf (codeOf c) := by
  cases c <;> decide

/-- The argument counts that `countOk` accepts are those of Table 7-1. -/
theorem countOk_iff (c : Command) (k : Nat) : c.countOk k = true ↔ k ∈ countsOf (codeOf c) := by
  cases c
  case loadWindows =>
    show decide (6 ≤ k ∧ k ≤ 36 ∧ k % 2 = 0) = true ↔ k ∈ [6, 8, 10, 12, 14, 16, 18, 20, 22, 24, 26, 28, 30, 32, 34, 36]
    simp only [decide_eq_true_eq, List.mem_cons, List.not_mem_nil, or_false]
    omega
  all_goals simp [Command.countOk, countsOf, codeOf]

/-- Of an argument word that is there, being in range says what its quantity's range says. -/
theorem inRange_iff (code : Byte) (args : List Word) (j : Nat) (hj : j < args.length) :
    InRange code args j ↔ ∀ r, (rangesOf code args)[j]? = some r → r.1 ≤ (args.getD j 0#32).toNat
      ∧ (args.getD j 0#32).toNat ≤ r.2 := by
  rw [InRange, List.getElem?_eq_getElem hj, List.getD_eq_getElem?_getD, List.getElem?_eq_getElem hj]
  exact ⟨fun h r => h _ r rfl, fun h w r hw => Option.some.inj hw ▸ h r⟩

/-- An argument word out of range is one that is there. -/
theorem lt_length_of_not_inRange (code : Byte) (args : List Word) (j : Nat) (h : ¬ InRange code args j) :
    j < args.length := by
  by_contra hj
  refine h (fun w r hw => ?_)
  rw [List.getElem?_eq_none (by omega)] at hw
  cases hw

/-- The range of the third word of DEFINE_AXIS, its modulus: any for LINEAR, 2 to 2147483648 for ROTARY (R148). -/
theorem argOk_modulus_iff (args : List Word) (hk : args.length = 6) :
    Command.defineAxis.argOk args 3 = true ↔ InRange (codeOf .defineAxis) args 3 := by
  have hw : (args[3]?.getD 0#32).toNat ≤ 4294967295 := by have := (args[3]?.getD 0#32).isLt; omega
  have hkind : args[2]?.getD 0#32 = 1#32 ↔ args[2]? = some 1#32 := by
    rw [List.getElem?_eq_getElem (by omega), Option.getD_some, Option.some.injEq]
  rw [inRange_iff _ _ _ (by omega)]
  by_cases h : args[2]? = some 1#32
  · simp [Command.argOk, rangesOf, codeOf, h]
  · simpa [Command.argOk, rangesOf, codeOf, hkind, h] using hw

/-- The range test of each argument word is that of its quantity (R13, R148 to R171). -/
theorem argOk_iff (c : Command) (args : List Word) (j : Nat) (hk : c.countOk args.length = true)
    (hj : j < args.length) : c.argOk args j = true ↔ InRange (codeOf c) args j := by
  cases c
  case loadWindows =>
    rw [inRange_iff _ _ _ hj]
    rcases j with _ | _ | _ | _ | j
    all_goals simp [Command.argOk, rangesOf, codeOf]
    omega
  all_goals
    simp only [Command.countOk, beq_iff_eq] at hk
    have hj' := hk ▸ hj
  case defineAxis =>
    obtain rfl | hne := eq_or_ne j 3
    · exact argOk_modulus_iff args hk
    · rw [inRange_iff _ _ _ hj]
      interval_cases j
      all_goals simp [Command.argOk, rangesOf, codeOf] at hne ⊢
  all_goals
    rw [inRange_iff _ _ _ hj]
    interval_cases j
    all_goals simp [Command.argOk, rangesOf, codeOf]

/-- The first argument word out of range is the first one whose quantity does not allow it (R135 order 4). -/
theorem firstBad_eq_some_iff (c : Command) (args : List Word) (hk : c.countOk args.length = true) (j : Nat) :
    c.firstBad args = some j ↔
      ¬ InRange (codeOf c) args j ∧ ∀ k, k < j → InRange (codeOf c) args k := by
  have hok (i : Nat) (hi : i < args.length) : (!c.argOk args i) = true ↔ ¬ InRange (codeOf c) args i := by
    rw [Bool.not_eq_true', ← Bool.not_eq_true, argOk_iff c args i hk hi]
  rw [Command.firstBad, List.find?_range_eq_some]
  constructor
  · rintro ⟨hbad, hj, hfirst⟩
    have hj := List.mem_range.mp hj
    refine ⟨(hok j hj).mp hbad, fun k hkj => ?_⟩
    simpa [argOk_iff c args k hk (by omega)] using hfirst k hkj
  · rintro ⟨hbad, hfirst⟩
    have hj := lt_length_of_not_inRange _ _ _ hbad
    refine ⟨(hok j hj).mpr hbad, List.mem_range.mpr hj, fun k hkj => ?_⟩
    simpa [argOk_iff c args k hk (by omega)] using hfirst k hkj

/-- No argument word is out of range exactly when every one lies in its range. -/
theorem firstBad_eq_none_iff (c : Command) (args : List Word) (hk : c.countOk args.length = true) :
    c.firstBad args = none ↔ ∀ j, InRange (codeOf c) args j := by
  rw [Command.firstBad, List.find?_eq_none]
  constructor
  · intro h j
    by_contra hbad
    have hj := lt_length_of_not_inRange _ _ _ hbad
    rw [← argOk_iff c args j hk hj] at hbad
    exact h j (List.mem_range.mpr hj) (by simpa using hbad)
  · intro h j hj
    simpa [argOk_iff c args j hk (List.mem_range.mp hj)] using h j

/-! ### The general refusals (R135) -/

/-- A malformed frame is refused before its code is looked at. -/
theorem refusal_of_malformed (e : CommandEntry) (h : e.malformed = true) : e.refusal = some (.malformed, []) := by
  simp [CommandEntry.refusal, h]

/-- A code that is not in Table 1-7 is refused. -/
theorem refusal_of_unknown (e : CommandEntry) (h : e.malformed = false) (hc : e.command = none) :
    e.refusal = some (.unknownCommand, []) := by
  simp [CommandEntry.refusal, h, hc]

/-- A command with an argument count that Table 7-1 does not give is refused. -/
theorem refusal_of_wrong_count (e : CommandEntry) (c : Command) (h : e.malformed = false) (hc : e.command = some c)
    (hk : c.countOk e.args.length = false) : e.refusal = some (.malformed, []) := by
  simp [CommandEntry.refusal, h, hc, hk]

/-- A command with the right number of arguments is refused for the first word out of range, if there is one. -/
theorem refusal_of_right_count (e : CommandEntry) (c : Command) (h : e.malformed = false) (hc : e.command = some c)
    (hk : c.countOk e.args.length = true) :
    e.refusal = (c.firstBad e.args).map (fun j => (.badArgument, [BitVec.ofNat 32 j])) := by
  simp only [CommandEntry.refusal, h, hc, hk, Bool.false_eq_true, Bool.not_true, if_false]
  cases c.firstBad e.args <;> rfl

/-- What passes the general refusals: a well-formed frame with a known code, the right number of argument words, and
each of them in range. -/
theorem refusal_eq_none_iff (e : CommandEntry) (c : Command) (hc : e.command = some c) :
    e.refusal = none ↔
      e.malformed = false ∧ c.countOk e.args.length = true ∧ ∀ j, InRange (codeOf c) e.args j := by
  cases hm : e.malformed
  case true => simp [refusal_of_malformed e hm]
  case false =>
    cases hk : c.countOk e.args.length
    case false => simp [refusal_of_wrong_count e c hm hc hk]
    case true => simp [refusal_of_right_count e c hm hc hk, firstBad_eq_none_iff c e.args hk]

/-- A general refusal carries at most one result word. -/
theorem refusal_words_length (e : CommandEntry) (status : Status) (words : List Word)
    (h : e.refusal = some (status, words)) : words.length ≤ 1 := by
  unfold CommandEntry.refusal at h
  split at h
  · cases h; decide
  · split at h
    · cases h; decide
    · split at h
      · cases h; decide
      · split at h
        · cases h; exact Nat.le_refl 1
        · cases h

/-- RELEASE_ADDRESS with no command in flight begins as every command does (R134, log entry 8). -/
theorem execReleaseAddress_begins (s : State) (h : s.cp.flight = .none) :
    execReleaseAddress s = .next (s.begins .releaseAddress (fun _ =>
      if s.pausing then s.nextPause.replyReleasing else s.nextPause.replyReleasing.giveUpAddress)) := by
  rw [execReleaseAddress, h, if_neg (by simp)]

/-- A row of the refused command's code begins that command (R134, log entry 13). -/
theorem exec_row_begins (s : State) (e : CommandEntry) (rest : List CommandEntry) (row : Instr)
    (hb : Begins s e rest) (hrow : row ∈ rowOf e.codeValue) (hr : e.refusal.isSome = true) :
    ∃ accepts own, exec row s = .next (s.beginsIf accepts own) ∧ accepts e = true := by
  obtain ⟨-, -, hflight⟩ := hb
  cases hc : e.command with
  | none =>
    rw [rowOf_of_unknown _ hc, List.mem_singleton] at hrow
    exact hrow ▸ ⟨_, _, rfl, by simp [hc]⟩
  | some c =>
    rw [(ofByte_eq_some_iff _ _).mp hc] at hrow
    cases c
    case releaseAddress =>
      obtain rfl := List.mem_singleton.mp hrow
      exact ⟨_, _, execReleaseAddress_begins s hflight, by simp [hc]⟩
    case reset =>
      have hrow : row = .resetTables ∨ row = .resetAll := by simpa [rowOf, codeOf] using hrow
      rcases hrow with rfl | rfl
      · exact ⟨_, _, rfl, by simp [CommandEntry.resetsAt, hc, hr]⟩
      · exact ⟨_, _, rfl, by simp [CommandEntry.resetsAt, hc, hr]⟩
    all_goals
      obtain rfl := List.mem_singleton.mp hrow
      exact ⟨_, _, rfl, by simp [hc]⟩

/-- A row of the refused command's code completes it with the refusal, and changes nothing else (R135, R136). -/
theorem exec_row_refused (s : State) (e : CommandEntry) (rest : List CommandEntry) (row : Instr)
    (hb : Begins s e rest) (hrow : row ∈ rowOf e.codeValue) (status : Status) (words : List Word)
    (hr : e.refusal = some (status, words)) : exec row s = .next (finished s e rest status words) := by
  obtain ⟨accepts, own, hexec, haccepts⟩ := exec_row_begins s e rest row hb hrow (by rw [hr]; rfl)
  obtain ⟨hheld, hqueue, hflight⟩ := hb
  rw [hexec, beginsIf_refused s e rest accepts own hheld hqueue hflight haccepts status words hr,
    complete_eq s e rest hqueue]
  rfl

/-- The row UNKNOWN_COMMAND is that of a code not in Table 1-7, and only of such. -/
theorem command_eq_none_iff (e : CommandEntry) (row : Instr) (hrow : row ∈ rowOf e.codeValue) :
    row = .unknownCommand ↔ e.command = none := by
  constructor
  · rintro rfl
    cases hc : e.command with
    | none => rfl
    | some c => exact absurd ((ofByte_eq_some_iff _ _).mp hc ▸ hrow) (unknownCommand_notMem_rowOf c)
  · intro hc
    simpa [rowOf_of_unknown _ hc] using hrow

/-- Settles O20: by what `refusal` answers in each case, since every row of the code completes with that. -/
theorem generalRefusalsComeFirst : Obligations.GeneralRefusalsComeFirst := by
  intro s e rest row hb hrow
  have refused := exec_row_refused s e rest row hb hrow
  have known (hne : row ≠ .unknownCommand) : ∃ c, e.command = some c ∧ e.code.getD 0#8 = codeOf c := by
    obtain ⟨c, hc⟩ := Option.ne_none_iff_exists'.mp (mt (command_eq_none_iff e row hrow).mpr hne)
    exact ⟨c, hc, (ofByte_eq_some_iff _ _).mp hc⟩
  refine ⟨fun hm => refused _ _ (refusal_of_malformed e hm),
    fun hm hu => refused _ _ (refusal_of_unknown e hm ((command_eq_none_iff e row hrow).mp hu)),
    fun hm hne hcount => ?_, fun j hm hne hcount hbad hfirst => ?_, fun hm hne hcount hall => ?_⟩
  all_goals
    obtain ⟨c, hc, hcode⟩ := known hne
    rw [hcode, ← countOk_iff] at hcount
  · exact refused _ _ (refusal_of_wrong_count e c hm hc (by simpa using hcount))
  · rw [hcode] at hbad hfirst
    refine refused _ _ ?_
    rw [refusal_of_right_count e c hm hc hcount, (firstBad_eq_some_iff c e.args hcount j).mpr ⟨hbad, hfirst⟩]
    rfl
  · rw [hcode] at hall
    exact (refusal_eq_none_iff e c hc).mpr ⟨hm, hcount, hall⟩

end Sys2Proof.Proofs

/-!
PROOFS. What each row can do, said once, for the invariants to cite.
-/
namespace Sys2Proof.Proofs

open Sys2Proof.Machine Sys2Proof.Claims

/-! ### What each row can do, said once: the rows of the RPU (chapter 2) -/

/-- All that RECEIVE_SAMPLE can do (R24, R25). -/
theorem execReceiveSample_cases {f : Frame} {s t : State} (ht : execReceiveSample f s = .next t) :
    t = s ∨ s.receives f = true
      ∧ ((classify f = .sample true ∧ t = s.endReception.ifRoom f (fun u => u.deliver.routeSample f))
        ∨ (classify f = .sample false ∧ t = s.endReception.ifRoom f (fun u => u.routeLost f))) := by
  unfold execReceiveSample at ht
  split at ht
  · next hr =>
    split at ht <;> cases ht
    · exact .inr ⟨hr, .inl ⟨by assumption, rfl⟩⟩
    · exact .inr ⟨hr, .inr ⟨by assumption, rfl⟩⟩
    · exact .inl rfl
  · exact .inl (Host.Outcome.next.inj ht).symm

/-- All that RECEIVE_DAMAGED can do (R3, R25, R28). -/
theorem execReceiveDamaged_cases {f : Frame} {s t : State} (ht : execReceiveDamaged f s = .next t) :
    t = s ∨ s.receives f = true ∧ classify f = .damaged ∧ t = s.endReception.ifRoom f (fun u =>
      (if byteAt f 0 = 1#8 then u.routeLost f else u.forwardReady f).send [[.count .framesDamaged]]) := by
  unfold execReceiveDamaged at ht
  split at ht
  · next hr =>
    split at ht <;> cases ht
    · exact .inr ⟨hr, by assumption, rfl⟩
    · exact .inl rfl
  · exact .inl (Host.Outcome.next.inj ht).symm

/-- All that RECEIVE_COMMAND can do (R26). -/
theorem execReceiveCommand_cases {f : Frame} {s t : State} (ht : execReceiveCommand f s = .next t) :
    t = s ∨ s.receives f = true ∧ ∃ valid, classify f = .command valid
      ∧ ((s.unicastHere f = true ∧ t = s.endReception.takeUnicast f valid)
        ∨ (s.unicastHere f = false ∧ valid = true ∧ byteAt f 1 = 255#8 ∧ t = s.endReception.ifRoom f (fun u =>
          (u.forwardReady f).offerBroadcast (entryOf f true .broadcast)))
        ∨ (s.unicastHere f = false ∧ ¬ (valid = true ∧ byteAt f 1 = 255#8)
          ∧ t = s.endReception.ifRoom f (fun u => u.forwardReady f))) := by
  unfold execReceiveCommand at ht
  split at ht
  · next hr =>
    split at ht
    · next valid hc =>
      refine .inr ⟨hr, valid, hc, ?_⟩
      split_ifs at ht with hu hb <;> cases ht
      · exact .inl ⟨hu, rfl⟩
      · obtain ⟨hv, hd⟩ := Bool.and_eq_true_iff.mp hb
        exact .inr (.inl ⟨by simpa using hu, hv, of_decide_eq_true hd, rfl⟩)
      · exact .inr (.inr ⟨by simpa using hu, by simpa using hb, rfl⟩)
    · exact .inl (Host.Outcome.next.inj ht).symm
  · exact .inl (Host.Outcome.next.inj ht).symm

/-- All that RECEIVE_REPLY can do (R27). -/
theorem execReceiveReply_cases {f : Frame} {s t : State} (ht : execReceiveReply f s = .next t) :
    t = s ∨ s.receives f = true
      ∧ (t = s.endReception.send [[.count .orphansRemoved]]
        ∨ t = s.endReception.ifRoom f (fun u => u.forwardReady f)) := by
  unfold execReceiveReply at ht
  split at ht
  · next hr =>
    split at ht
    · split at ht <;> cases ht
      · exact .inr ⟨hr, .inl rfl⟩
      · exact .inr ⟨hr, .inr rfl⟩
    · exact .inl (Host.Outcome.next.inj ht).symm
  · exact .inl (Host.Outcome.next.inj ht).symm

/-- All that RECEIVE_ENUMERATE can do (R174). -/
theorem execReceiveEnumerate_cases {f : Frame} {s t : State} (ht : execReceiveEnumerate f s = .next t) :
    t = s ∨ s.receives f = true ∧ classify f = .enumerate true
      ∧ t = s.endReception.ifRoom f (fun u => u.routeEnumerate f) := by
  unfold execReceiveEnumerate at ht
  split at ht
  · next hr =>
    split at ht <;> cases ht
    · exact .inr ⟨hr, by assumption, rfl⟩
    · exact .inl rfl
  · exact .inl (Host.Outcome.next.inj ht).symm

/-- All that RECEIVE_FOREIGN can do (R23, R28). -/
theorem execReceiveForeign_cases {f : Frame} {s t : State} (ht : execReceiveForeign f s = .next t) :
    t = s ∨ s.receives f = true
      ∧ ((classify f = .foreign
          ∧ t = s.endReception.ifRoom f (fun u => (u.forwardReady f).send [[.count .framesForeign]]))
        ∨ ((classify f = .noKind ∨ classify f = .enumerate false)
          ∧ t = s.endReception.ifRoom f (fun u => u.forwardReady f))) := by
  unfold execReceiveForeign at ht
  split at ht
  · next hr =>
    split at ht <;> cases ht
    · exact .inr ⟨hr, .inl ⟨by assumption, rfl⟩⟩
    · exact .inr ⟨hr, .inr ⟨.inl (by assumption), rfl⟩⟩
    · exact .inr ⟨hr, .inr ⟨.inr (by assumption), rfl⟩⟩
    · exact .inl rfl
  · exact .inl (Host.Outcome.next.inj ht).symm

/-- All that LINE_ACQUIRED can do (R21): the link state comes up, and nothing leaves the RPU but a notice. -/
theorem execLineAcquired_cases {port : Port} {s t : State} (ht : execLineAcquired port s = .next t) :
    t = s ∨ s.resetHeld = false ∧ s.rpu.link port ≠ .up
      ∧ (t = { s with rpu := s.rpu.acquired port, mu := s.mu.latch .linkChange }
        ∨ t = State.send { s with rpu := s.rpu.acquired port } [[.latch .linkChange]]) := by
  unfold execLineAcquired at ht
  split_ifs at ht with hd hs <;> cases ht
  · exact .inl rfl
  all_goals
    obtain ⟨hh, hl⟩ : s.resetHeld = false ∧ s.rpu.link port ≠ .up := by simpa using hd
  · exact .inr ⟨hh, hl, .inl rfl⟩
  · exact .inr ⟨hh, hl, .inr rfl⟩

/-- All that LINE_LOST can do (R21). -/
theorem execLineLost_cases {port : Port} {s t : State} (ht : execLineLost port s = .next t) :
    t = s ∨ s.resetHeld = false
      ∧ t = State.send { s with rpu := ((s.rpu.setLink port .down).broken port).1 }
        ([.latch .linkChange, .fault (linkDownReport port)] :: ((s.rpu.setLink port .down).broken port).2) := by
  unfold execLineLost at ht
  split_ifs at ht with hd <;> cases ht
  · exact .inl rfl
  · obtain ⟨hh, -⟩ := Bool.or_eq_false_iff.mp (Bool.eq_false_iff.mpr hd)
    exact .inr ⟨hh, rfl⟩

/-- All that RX_ABORT can do (R22). -/
theorem execRxAbort_cases {cause : AbortCause} {s t : State} (ht : execRxAbort cause s = .next t) :
    t = s ∨ s.resetHeld = false ∧ ∃ r, t = State.send { s with rpu := { s.rpu with receiving := r } }
      [[.count .rxAborts]] := by
  unfold execRxAbort at ht
  split_ifs at ht with hd <;> cases ht
  · exact .inl rfl
  · exact .inr ⟨by simp_all, _, rfl⟩

/-- All that SEND_FORWARD_BEGIN can do (R31). -/
theorem execSendForwardBegin_cases {s t : State} (ht : execSendForwardBegin s = .next t) :
    t = s ∨ s.resetHeld = false ∧ s.rpu.arbiter = .idle ∧ s.rpu.readyHead.isSome = true
      ∧ t = { s with rpu := { s.rpu with arbiter := .sendingForward } } := by
  unfold execSendForwardBegin at ht
  split_ifs at ht with hd <;> cases ht
  · simp only [Bool.and_eq_true, Bool.not_eq_true', decide_eq_true_eq] at hd
    obtain ⟨⟨⟨hh, ha⟩, -⟩, hr⟩ := hd
    exact .inr ⟨hh, ha, hr, rfl⟩
  · exact .inl rfl

/-- All that SEND_REPLY_BEGIN can do (R31, R37): the reply sent is the head of the reply queue. -/
theorem execSendReplyBegin_cases {s t : State} (ht : execSendReplyBegin s = .next t) :
    t = s ∨ s.resetHeld = false ∧ ∃ r rest, s.iq.replies = r :: rest
      ∧ t = { s with
        rpu := { s.rpu with arbiter := .sendingReply r.frame }
        iq := { s.iq with replies := rest } } := by
  unfold execSendReplyBegin at ht
  split_ifs at ht with hd
  · have hh : s.resetHeld = false := by simp_all
    split at ht <;> cases ht
    · exact .inr ⟨hh, _, _, by assumption, rfl⟩
    · exact .inl rfl
  · exact .inl (Host.Outcome.next.inj ht).symm

/-- All that FRAME_FORWARDED can do (R32). -/
theorem execFrameForwarded_cases {s t : State} (ht : execFrameForwarded s = .next t) :
    t = s ∨ s.resetHeld = false ∧ s.rpu.arbiter = .sendingForward
      ∧ t = State.send { s with rpu := { s.rpu with arbiter := .idle, forward := s.rpu.forward.tail } }
        [[.count .framesForwarded]] := by
  unfold execFrameForwarded at ht
  split_ifs at ht with hd <;> cases ht
  · obtain ⟨hh, ha⟩ : s.resetHeld = false ∧ s.rpu.arbiter = .sendingForward := by simpa using hd
    exact .inr ⟨hh, ha, rfl⟩
  · exact .inl rfl

/-- All that REPLY_SENT can do (R32). -/
theorem execReplySent_cases {s t : State} (ht : execReplySent s = .next t) :
    t = s ∨ s.resetHeld = false
      ∧ t = State.send { s with rpu := { s.rpu with arbiter := .idle } } [[.count .repliesSent]] := by
  unfold execReplySent at ht
  split at ht
  · exact .inl (Host.Outcome.next.inj ht).symm
  · next hh =>
    split at ht <;> cases ht
    · exact .inr ⟨by simpa using hh, rfl⟩
    · exact .inl rfl

/-- All that OUT_DISCARD can do (R33). -/
theorem execOutDiscard_cases {s t : State} (ht : execOutDiscard s = .next t) :
    t = s ∨ s.resetHeld = false ∧ s.rpu.arbiter = .idle ∧ s.rpu.readyHead.isSome = true
      ∧ t = State.send { s with rpu := { s.rpu with forward := s.rpu.forward.tail } } [[.count .outDiscards]] := by
  unfold execOutDiscard at ht
  split_ifs at ht with hd <;> cases ht
  · simp only [Bool.and_eq_true, Bool.not_eq_true', decide_eq_true_eq] at hd
    obtain ⟨⟨⟨hh, ha⟩, -⟩, hr⟩ := hd
    exact .inr ⟨hh, ha, hr, rfl⟩
  · exact .inl rfl

/-- All that REPLY_EXPIRED can do (R38): the reply queue loses the reply at the position, and the others age. -/
theorem execReplyExpired_cases {position : Nat} {s t : State} (ht : execReplyExpired position s = .next t) :
    t = s ∨ s.resetHeld = false ∧ ∃ r l, s.iq.replies[position]? = some r
      ∧ t = State.send { s with iq := { s.iq with
        replies := (s.iq.age r.remaining).replies.eraseIdx position } } l := by
  unfold execReplyExpired at ht
  split at ht
  · exact .inl (Host.Outcome.next.inj ht).symm
  · next hh =>
    split at ht <;> cases ht
    · exact .inl rfl
    · exact .inr ⟨by simpa using hh, _, _, by assumption, rfl⟩

/-! ### What each row can do: the evaluation of the SE (section 3.2) -/

/-- Notices that the MU takes together change the MU and the choices drawn, and nothing else. -/
theorem takeAll_changes (s : State) (l : List Notice) : ∃ mu n, s.takeAll l = { s with mu := mu, choices := n } := by
  obtain ⟨order, -, n, h⟩ := takeAll_eq s l
  exact ⟨_, n, h⟩

/-- Before a status word is written the SE has done its work and the MU has taken notices; the rest stays (R92). -/
theorem beforeStatus_eq (s : State) (f : Frame) :
    ∃ mu onWay lag n, s.beforeStatus f
      = { s with se := s.se.evaluated f, mu := mu, onWay := onWay, lag := lag, choices := n } := by
  obtain ⟨mu, onWay, lag, _, hd⟩ := deliver_eq s
  obtain ⟨mu', n, ht⟩ := takeAll_changes { s.deliver with se := s.se.evaluated f }
    ((s.se.frameNotices f).flatten.filter (fun n => !n.isCount))
  refine ⟨mu', onWay, lag, n, ?_⟩
  rw [State.beforeStatus, ht, hd]

@[simp] theorem beforeStatus_rpu (s : State) (f : Frame) : (s.beforeStatus f).rpu = s.rpu := by
  obtain ⟨_, _, _, _, h⟩ := beforeStatus_eq s f
  rw [h]

@[simp] theorem beforeStatus_iq (s : State) (f : Frame) : (s.beforeStatus f).iq = s.iq := by
  obtain ⟨_, _, _, _, h⟩ := beforeStatus_eq s f
  rw [h]

@[simp] theorem beforeStatus_se (s : State) (f : Frame) : (s.beforeStatus f).se = s.se.evaluated f := by
  obtain ⟨_, _, _, _, h⟩ := beforeStatus_eq s f
  rw [h]

@[simp] theorem beforeStatus_cp (s : State) (f : Frame) : (s.beforeStatus f).cp = s.cp := by
  obtain ⟨_, _, _, _, h⟩ := beforeStatus_eq s f
  rw [h]

@[simp] theorem beforeStatus_resetHeld (s : State) (f : Frame) : (s.beforeStatus f).resetHeld = s.resetHeld := by
  obtain ⟨_, _, _, _, h⟩ := beforeStatus_eq s f
  rw [h]

@[simp] theorem beforeStatus_pending (s : State) (f : Frame) : (s.beforeStatus f).pending = s.pending := by
  obtain ⟨_, _, _, _, h⟩ := beforeStatus_eq s f
  rw [h]

@[simp] theorem beforeStatus_line (s : State) (f : Frame) : (s.beforeStatus f).line = s.line := by
  obtain ⟨_, _, _, _, h⟩ := beforeStatus_eq s f
  rw [h]

@[simp] theorem beforeStatus_pauses (s : State) (f : Frame) : (s.beforeStatus f).pauses = s.pauses := by
  obtain ⟨_, _, _, _, h⟩ := beforeStatus_eq s f
  rw [h]

/-- The frame as the SE hands it back: its ACTION slots written, the status word in its STATUS slot if it has one, and
a fresh CRC when anything was written (R88, R92, R93). -/
def handedBackFrame (s : State) (f : Frame) : Frame :=
  match (s.se.evaluated f).statusOffset ((s.se.evaluated f).writeActions f).frame with
  | some offset =>
    resealed (putSlotValue ((s.se.evaluated f).writeActions f).frame offset (s.beforeStatus f).statusWord)
  | none => ((s.se.evaluated f).writeActions f).leaving f

/-- All that the evaluation of a frame changes outside the MU: the SE's records and the frame handed back (R48). -/
theorem evaluate_eq (s : State) (f : Frame) :
    ∃ mu onWay lag n, s.evaluate f = { s with
      se := s.se.evaluated f, rpu := s.rpu.handedBack (handedBackFrame s f)
      mu := mu, onWay := onWay, lag := lag, choices := n } := by
  unfold State.evaluate handedBackFrame
  cases hoff : (s.se.evaluated f).statusOffset ((s.se.evaluated f).writeActions f).frame <;> simp only [hoff]
  case some offset =>
    obtain ⟨mu, onWay, lag, n, hs⟩ := sendEvents_eq _ _
    exact ⟨mu, onWay, lag, n, hs.trans (by simp)⟩
  case none =>
    obtain ⟨mu, onWay, lag, n, hs⟩ := sendEvents_eq _ _
    exact ⟨mu, onWay, lag, n, hs⟩

/-- All that SAMPLE_EVALUATION can do (R48). -/
theorem execSampleEvaluation_cases {s t : State} (ht : execSampleEvaluation s = .next t) :
    t = s ∨ s.resetHeld = false ∧ ∃ f handed, s.rpu.handed = .sample :: handed
      ∧ inEvaluation s.rpu.forward = some f ∧ t = s.evaluate f := by
  unfold execSampleEvaluation at ht
  split at ht
  · exact .inl (Host.Outcome.next.inj ht).symm
  · next hh =>
    split at ht <;> cases ht
    · exact .inr ⟨by simpa using hh, _, _, by assumption, by assumption, rfl⟩
    · exact .inl rfl

/-- All that LOST_SAMPLE can do (R25, R48, R63). -/
theorem execLostSample_cases {s t : State} (ht : execLostSample s = .next t) :
    t = s ∨ s.resetHeld = false ∧ ∃ rest, s.rpu.handed = .lost :: rest
      ∧ t = State.takeLost { s with rpu := { s.rpu with handed := rest } } := by
  unfold execLostSample at ht
  split at ht
  · exact .inl (Host.Outcome.next.inj ht).symm
  · next hh =>
    split at ht <;> cases ht
    · exact .inr ⟨by simpa using hh, _, by assumption, rfl⟩
    · exact .inl rfl

/-! ### What each row can do: the completions and the requests of the CP -/

/-- All that VALIDATION_COMPLETE can do (R109, R110). -/
theorem execValidationComplete_cases {s t : State} (ht : execValidationComplete s = .next t) :
    t = s ∨ s.resetHeld = false ∧ s.cp.flight = .validating ∧ ∃ o, s.se.commit = .validating o
      ∧ t = s.finishValidation o := by
  unfold execValidationComplete at ht
  split at ht
  · exact .inl (Host.Outcome.next.inj ht).symm
  · next hh =>
    split at ht <;> cases ht
    · exact .inr ⟨by simpa using hh, by assumption, _, by assumption, rfl⟩
    · exact .inl rfl

/-- All that COPY_COMPLETE can do (R99). -/
theorem execCopyComplete_cases {s t : State} (ht : execCopyComplete s = .next t) :
    t = s ∨ s.resetHeld = false ∧ s.cp.flight = .copying
      ∧ t = State.complete { s with se := { s.se.withStaged s.se.active with stagedOp := .idle } } .ok
        [numWord s.se.generation.toNat] := by
  unfold execCopyComplete at ht
  split_ifs at ht with hd <;> cases ht
  · obtain ⟨hh, hf⟩ : s.resetHeld = false ∧ s.cp.flight = .copying := by simpa using hd
    exact .inr ⟨hh, hf, rfl⟩
  · exact .inl rfl

/-- All that CLEAR_COMPLETE can do (R100). -/
theorem execClearComplete_cases {s t : State} (ht : execClearComplete s = .next t) :
    t = s ∨ s.resetHeld = false ∧ s.cp.flight = .clearing
      ∧ t = State.complete { s with se := { s.se.withStaged .empty with stagedOp := .idle } } .ok [] := by
  unfold execClearComplete at ht
  split_ifs at ht with hd <;> cases ht
  · obtain ⟨hh, hf⟩ : s.resetHeld = false ∧ s.cp.flight = .clearing := by simpa using hd
    exact .inr ⟨hh, hf, rfl⟩
  · exact .inl rfl

/-- All that COMMIT_DROP can do (R120, R177; log entry 7). -/
theorem execCommitDrop_cases {s t : State} (ht : execCommitDrop s = .next t) :
    t = s ∨ s.resetHeld = false
      ∧ ((s.cp.flight = .dropping ∧ (t = s.nextPause.dropCommit ∨ t = s.nextPause.dropCommit.replyDropped))
        ∨ ((∃ o, s.cp.flight = .dropped o) ∧ t = s.replyDropped)) := by
  unfold execCommitDrop at ht
  split at ht
  · exact .inl (Host.Outcome.next.inj ht).symm
  · next hh =>
    split at ht <;> cases ht
    · next hf =>
      refine .inr ⟨by simpa using hh, .inl ⟨hf, ?_⟩⟩
      split
      · exact .inl rfl
      · exact .inr rfl
    · exact .inr ⟨by simpa using hh, .inr ⟨⟨_, by assumption⟩, rfl⟩⟩
    · exact .inl rfl

/-- All that DYNAMIC_RECORD_CLEAR can do (R179; log entry 7). -/
theorem execDynamicRecordClear_cases {last : ResumeStep} {s t : State}
    (ht : execDynamicRecordClear last s = .next t) :
    t = s ∨ s.resetHeld = false ∧ ∃ next, s.cp.flight = .resuming next
      ∧ t = (resumeSteps next last).foldl State.resumeStep s := by
  unfold execDynamicRecordClear at ht
  split at ht
  · exact .inl (Host.Outcome.next.inj ht).symm
  · next hh =>
    split at ht <;> cases ht
    · exact .inr ⟨by simpa using hh, _, by assumption, rfl⟩
    · exact .inl rfl

/-- All that SE_TABLE_RESET can do (R185, R186; log entry 7). -/
theorem execSeTableReset_cases {last : ResetStep} {s t : State} (ht : execSeTableReset last s = .next t) :
    t = s ∨ s.resetHeld = false ∧ ∃ level next, s.cp.flight = .resetting level next
      ∧ t = (resetSteps next last).foldl (State.resetStep level) s := by
  unfold execSeTableReset at ht
  split at ht
  · exact .inl (Host.Outcome.next.inj ht).symm
  · next hh =>
    split at ht <;> cases ht
    · exact .inr ⟨by simpa using hh, _, _, by assumption, rfl⟩
    · exact .inl rfl

/-- All that RELEASE_ADDRESS can do (R170, R180; log entries 7 and 8). -/
theorem execReleaseAddress_cases {s t : State} (ht : execReleaseAddress s = .next t) :
    (s.resetHeld = false ∧ s.cp.flight = .releasing ∧ t = s.giveUpAddress)
      ∨ t = s.begins .releaseAddress (fun _ =>
        if s.pausing then s.nextPause.replyReleasing else s.nextPause.replyReleasing.giveUpAddress) := by
  unfold execReleaseAddress at ht
  split at ht <;> cases ht
  · next hd =>
    obtain ⟨hh, hf⟩ : s.resetHeld = false ∧ s.cp.flight = .releasing := by simpa using hd
    exact .inl ⟨hh, hf, rfl⟩
  · exact .inr rfl

/-! ### What goes on while no command waits (R22, R38; log entry 3) -/

/-- All that a symbol at IN can change: what is being received, and the commands that wait. -/
theorem arrive_eq (s : State) (x : LineSymbol) :
    ∃ r p, s.arrive x = { s with rpu := { s.rpu with receiving := r }, pending := p } := by
  unfold State.arrive
  split
  · exact ⟨s.rpu.receiving, s.pending, rfl⟩
  · split <;> try split
    all_goals exact ⟨_, _, rfl⟩

/-- All that goes on outside the MU while no command waits. -/
theorem pass_cases (s : State) :
    (∃ r p l, s.pass = { s with rpu := { s.rpu with receiving := r }, pending := p, line := l })
      ∨ s.pass = { s with iq := s.iq.age 1 } := by
  unfold State.pass
  split
  · next x l _ =>
    obtain ⟨r, p, h⟩ := arrive_eq { s with line := l } x
    exact .inl ⟨r, p, l, h⟩
  · split
    · exact .inl ⟨s.rpu.receiving, _, s.line, rfl⟩
    · exact .inr rfl

end Sys2Proof.Proofs

/-!
PROOFS. Every step keeps every reply the part holds a well-formed REPLY frame.
-/
namespace Sys2Proof.Proofs

open Sys2Proof.Machine Sys2Proof.Claims

/-! ### The replies the part holds (R12): what keeps them well-formed REPLY frames -/

/-- The law depends on the reply queue, the retry table and the arbiter alone. -/
theorem replies_of_same {s t : State} (h : Safety.Replies s) (hi : t.iq.replies = s.iq.replies)
    (hc : t.cp.retry = s.cp.retry) (ha : t.rpu.arbiter = s.rpu.arbiter) : Safety.Replies t := by
  unfold Safety.Replies
  rw [hi, hc, ha]
  exact h

theorem replies_deliver {s : State} (h : Safety.Replies s) : Safety.Replies s.deliver :=
  replies_of_same h (by simp) (by simp) (by simp)

theorem replies_atRead {s : State} (h : Safety.Replies s) : Safety.Replies s.atRead :=
  replies_of_same h (by simp) (by simp) (by simp)

theorem replies_atCount {s : State} (h : Safety.Replies s) : Safety.Replies s.atCount :=
  replies_of_same h (by simp) (by simp) (by simp)

theorem replies_acceptedBefore {s : State} (n : Nat) (h : Safety.Replies s) : Safety.Replies (s.acceptedBefore n) :=
  replies_of_same h (by simp) (by simp) (by simp)

theorem replies_sendEvents {s : State} (l : List Event) (h : Safety.Replies s) : Safety.Replies (s.sendEvents l) :=
  replies_of_same h (by simp) (by simp) (by simp)

theorem replies_send {s : State} (l : List (List Notice)) (h : Safety.Replies s) : Safety.Replies (s.send l) :=
  replies_sendEvents _ h

/-- A well-formed REPLY frame may join the reply queue by reservation (R36). -/
theorem replies_joinReserved {s : State} (f : Frame) (h : Safety.Replies s) (hf : classify f = .reply true) :
    Safety.Replies { s with iq := s.iq.joinReserved f } := by
  obtain ⟨hwaiting, hcached, hsending⟩ := h
  refine ⟨fun x hx => ?_, hcached, hsending⟩
  rcases List.mem_append.mp hx with hx | hx
  · exact hwaiting x hx
  · rw [List.mem_singleton.mp hx]
    exact hf

/-- A well-formed REPLY frame may join the reply queue without reservation (R36). -/
theorem replies_joinCopy {s : State} (f : Frame) (h : Safety.Replies s) (hf : classify f = .reply true) :
    Safety.Replies { s with iq := s.iq.joinCopy f } :=
  replies_joinReserved f h hf

/-- Every reply cached at completion was cached before or is the reply built (R133). -/
theorem cached_of_mem_cacheReply (table : List RetryEntry) (e : CommandEntry) (behind : List CommandEntry)
    (reply f : Frame) (r : RetryEntry) (hr : r ∈ cacheReply table e behind reply) (hf : r.cached = some f) :
    f = reply ∨ ∃ r' ∈ table, r'.cached = some f := by
  unfold cacheReply at hr
  split at hr
  · exact .inr ⟨r, hr, hf⟩
  · obtain ⟨r', hr', rfl⟩ := List.mem_map.mp hr
    split at hf
    · exact .inl (Option.some.inj hf).symm
    · exact .inr ⟨r', hr', hf⟩

/-- Completion with up to 32 result words builds and caches a well-formed REPLY frame, and no other (R136, R133). -/
theorem replies_complete {s : State} (status : Status) (words : List Word) (h : Safety.Replies s)
    (hw : words.length ≤ 32) : Safety.Replies (s.complete status words) := by
  cases hq : s.cp.queue with
  | nil => rwa [State.complete, hq]
  | cons e rest =>
    rw [complete_eq s e rest hq]
    cases e.origin with
    | broadcast => exact h
    | unicast =>
      have hreply := classify_replyFrame e s.rpu.address status words hw
      obtain ⟨hwaiting, -, hsending⟩ := replies_joinReserved _ h hreply
      refine ⟨hwaiting, fun r hr f hf => ?_, hsending⟩
      rcases cached_of_mem_cacheReply _ _ _ _ f r hr hf with rfl | ⟨r', hr', hf'⟩
      · exact hreply
      · exact h.2.1 r' hr' f hf'

/-- Beginning a command keeps the law when the command's own tests and effect do. -/
theorem replies_beginsIf {s : State} (accepts : CommandEntry → Bool) (own : CommandEntry → State)
    (h : Safety.Replies s)
    (hown : ∀ e, accepts e = true → e.refusal = none → Safety.Replies (own e)) :
    Safety.Replies (s.beginsIf accepts own) := by
  rcases beginsIf_cases s accepts own with hs | ⟨e, rest, -, -, -, ha, ⟨status, words, hr, hs⟩ | ⟨hr, hs⟩⟩
  · rwa [hs]
  · rw [hs]
    exact replies_complete _ _ h ((refusal_words_length e status words hr).trans (by decide))
  · rw [hs]
    exact hown e ha hr

/-- Beginning a command of Table 1-7 keeps the law when the command's own tests and effect do. -/
theorem replies_begins {s : State} (c : Command) (own : CommandEntry → State) (h : Safety.Replies s)
    (hown : ∀ e, e.command = some c → e.refusal = none → Safety.Replies (own e)) : Safety.Replies (s.begins c own) :=
  replies_beginsIf _ own h (fun e ha hr => hown e (of_decide_eq_true ha) hr)

/-- An edit with up to 32 result words keeps the law (R98). -/
theorem replies_edit {s : State} (change : Bank → Bank) (words : Bank → List Word) (h : Safety.Replies s)
    (hw : ∀ b, (words b).length ≤ 32) : Safety.Replies (s.edit change words) := by
  rcases edit_cases s change words with ⟨-, hs⟩ | ⟨-, hs⟩ <;> rw [hs]
  · exact replies_complete _ _ h (by decide)
  · exact replies_complete _ _ (replies_of_same h rfl rfl rfl) (hw _)

/-! ### The lengths of the result lists (chapter 7) -/

theorem axisWords_length (s : State) (i : Fin 16) : (s.axisWords i).length = 14 := by
  have hdef : (axisDefWords s.se.active.axes[i]).length = 6 := by cases s.se.active.axes[i] <;> rfl
  rw [State.axisWords, List.length_append, hdef]
  rfl

theorem trackWords_length (s : State) (t : Fin 32) (b : Bank) : (s.trackWords t b).length = 14 := by
  have hdef : (trackDefWords b.tracks[t]).length = 10 := by cases b.tracks[t] <;> rfl
  rw [State.trackWords, List.length_append, hdef]
  rfl

theorem windowWords_length (l : List Window) : (windowWords l).length = 2 * l.length := by
  induction l with
  | nil => rfl
  | cons w rest ih =>
    rw [List.length_cons, Nat.mul_succ, ← ih]
    rfl

theorem faultWords_length (r : Option FaultRecord) : (faultWords r).length = 6 := by cases r <;> rfl

theorem counterWords_length (m : Mu) : (counterWords m).length = 16 := by simp [counterWords]

theorem droppedWords_length (o : Option CommitOrder) : (droppedWords o).length = 3 := by cases o <;> rfl

/-- READ_WINDOWS asks for at most 16 windows (R160). -/
theorem readWindows_count_le (e : CommandEntry) (hc : e.command = some .readWindows) (hr : e.refusal = none) :
    e.num 3 ≤ 16 := by
  obtain ⟨-, hcount, hrange⟩ := (refusal_eq_none_iff e _ hc).mp hr
  have hlen : e.args.length = 4 := by simpa [Command.countOk] using hcount
  exact ((inRange_iff _ _ _ (by omega)).mp (hrange 3) (1, 16) rfl).2

/-! ### The shared operations keep the replies well formed -/

/-- The test of R30 keeps the law when the frame's routes do. -/
theorem replies_ifRoom {s : State} (f : Frame) (routes : State → State) (h : Safety.Replies s)
    (hr : Safety.Replies (routes s)) : Safety.Replies (s.ifRoom f routes) := by
  rcases ifRoom_cases s f routes with ⟨-, hs⟩ | ⟨-, hs⟩ <;> rw [hs]
  · exact replies_send _ h
  · exact hr

theorem replies_endReception {s : State} (h : Safety.Replies s) : Safety.Replies s.endReception := h

theorem replies_routeLost {s : State} (f : Frame) (h : Safety.Replies s) : Safety.Replies (s.routeLost f) := by
  unfold State.routeLost State.announceLost
  split <;> exact h

/-- Leaving out its least recent DONE entry leaves a part of the retry table. -/
theorem dropOldestDone_sublist (table rest : List RetryEntry) (h : dropOldestDone table = some rest) :
    rest.Sublist table := by
  induction table generalizing rest with
  | nil => cases h
  | cons r l ih =>
    unfold dropOldestDone at h
    split at h
    · exact Option.some.inj h ▸ List.sublist_cons_self r l
    · obtain ⟨l', hl', rfl⟩ := Option.map_eq_some_iff.mp h
      exact (ih l' hl').cons_cons r

/-- An acceptance adds no entry to the retry table but one IN_PROGRESS (R132). -/
theorem mem_acceptTag (table : List RetryEntry) (source : Byte) (tag : Half) (r : RetryEntry)
    (h : r ∈ acceptTag table source tag) : r ∈ table ∨ r.cached = none := by
  have joined (l : List RetryEntry) (hl : l.Sublist table)
      (hr : r ∈ l ++ [{ source := source, tag := tag, cached := none }]) : r ∈ table ∨ r.cached = none := by
    rcases List.mem_append.mp hr with hr | hr
    · exact .inl (hl.subset hr)
    · exact .inr (List.mem_singleton.mp hr ▸ rfl)
  unfold acceptTag at h
  split_ifs at h
  · exact joined _ List.filter_sublist h
  · exact joined _ (List.Sublist.refl _) h
  · split at h
    · exact joined _ (dropOldestDone_sublist _ _ (by assumption)) h
    · exact .inl h

/-- A command accepted caches no reply (R126, R132). -/
theorem replies_acceptUnicast {s : State} (e : CommandEntry) (h : Safety.Replies s) :
    Safety.Replies (s.acceptUnicast e) := by
  obtain ⟨hwaiting, hcached, hsending⟩ := h
  refine replies_send _ ⟨hwaiting, fun r hr f hf => ?_, hsending⟩
  change r ∈ (if e.tagValue = 0#16 then s.cp.retry else acceptTag s.cp.retry e.source e.tagValue) at hr
  split at hr
  · exact hcached r hr f hf
  · rcases mem_acceptTag _ _ _ r hr with hr | hr
    · exact hcached r hr f hf
    · rw [hr] at hf
      cases hf

/-- A duplicate is answered with the reply its entry caches (R127). -/
theorem replies_takeDuplicate {s : State} (r : RetryEntry) (hr : r ∈ s.cp.retry) (h : Safety.Replies s) :
    Safety.Replies (s.takeDuplicate r) := by
  unfold State.takeDuplicate
  cases hc : r.cached with
  | none => exact replies_send _ h
  | some reply =>
    simp only
    split
    · exact replies_send _ (replies_joinCopy reply h (h.2.1 r hr reply hc))
    · exact replies_send _ h

/-- An offered unicast command is a duplicate of an entry of the retry table, discarded, or accepted (R126). -/
theorem replies_offerUnicast {s : State} (e : CommandEntry) (h : Safety.Replies s) :
    Safety.Replies (s.offerUnicast e) := by
  unfold State.offerUnicast
  cases hd : duplicateOf s.cp.retry e with
  | some r =>
    have hr : r ∈ s.cp.retry := by
      unfold duplicateOf at hd
      split at hd
      · cases hd
      · exact List.mem_of_find?_eq_some hd
    exact replies_takeDuplicate r hr h
  | none =>
    simp only
    split_ifs
    · exact replies_send _ h
    · exact replies_send _ h
    · exact replies_acceptUnicast e h

theorem replies_offerBroadcast {s : State} (e : CommandEntry) (h : Safety.Replies s) :
    Safety.Replies (s.offerBroadcast e) := by
  unfold State.offerBroadcast
  split_ifs
  · exact replies_send _ h
  · exact replies_send _ h
  · exact replies_send _ (replies_of_same h rfl rfl rfl)

/-! ### Each row keeps the replies well formed -/

theorem replies_receiveSample {s t : State} (f : Frame) (h : Safety.Replies s) (ht : execReceiveSample f s = .next t) :
    Safety.Replies t := by
  rcases execReceiveSample_cases ht with rfl | ⟨-, ⟨-, rfl⟩ | ⟨-, rfl⟩⟩
  · exact h
  · refine replies_ifRoom f _ h ?_
    unfold State.routeSample
    split <;> exact replies_of_same (replies_deliver (replies_endReception h)) rfl rfl rfl
  · exact replies_ifRoom f _ h (replies_routeLost f h)

theorem replies_receiveDamaged {s t : State} (f : Frame) (h : Safety.Replies s)
    (ht : execReceiveDamaged f s = .next t) : Safety.Replies t := by
  rcases execReceiveDamaged_cases ht with rfl | ⟨-, -, rfl⟩
  · exact h
  · refine replies_ifRoom f _ h (replies_send _ ?_)
    split
    · exact replies_routeLost f h
    · exact h

theorem replies_receiveCommand {s t : State} (f : Frame) (h : Safety.Replies s)
    (ht : execReceiveCommand f s = .next t) : Safety.Replies t := by
  rcases execReceiveCommand_cases ht with rfl | ⟨-, valid, -, ⟨-, rfl⟩ | ⟨-, -, -, rfl⟩ | ⟨-, -, rfl⟩⟩
  · exact h
  · unfold State.takeUnicast
    split
    · exact replies_send _ h
    · exact replies_offerUnicast _ h
  · exact replies_ifRoom f _ h (replies_offerBroadcast _ h)
  · exact replies_ifRoom f _ h h

theorem replies_receiveReply {s t : State} (f : Frame) (h : Safety.Replies s) (ht : execReceiveReply f s = .next t) :
    Safety.Replies t := by
  rcases execReceiveReply_cases ht with rfl | ⟨-, rfl | rfl⟩
  · exact h
  · exact replies_send _ h
  · exact replies_ifRoom f _ h h

theorem replies_receiveEnumerate {s t : State} (f : Frame) (h : Safety.Replies s)
    (ht : execReceiveEnumerate f s = .next t) : Safety.Replies t := by
  rcases execReceiveEnumerate_cases ht with rfl | ⟨-, -, rfl⟩
  · exact h
  · refine replies_ifRoom f _ h ?_
    unfold State.routeEnumerate
    split <;> exact h

theorem replies_receiveForeign {s t : State} (f : Frame) (h : Safety.Replies s)
    (ht : execReceiveForeign f s = .next t) : Safety.Replies t := by
  rcases execReceiveForeign_cases ht with rfl | ⟨-, ⟨-, rfl⟩ | ⟨-, rfl⟩⟩
  · exact h
  · exact replies_ifRoom f _ h (replies_send _ h)
  · exact replies_ifRoom f _ h h

/-- The traffic of a port that is lost breaks off: at most the arbiter returns to IDLE (R33). -/
theorem broken_arbiter (r : Rpu) (port : Port) :
    ((r.setLink port .down).broken port).1.arbiter = r.arbiter
      ∨ ((r.setLink port .down).broken port).1.arbiter = .idle := by
  cases port with
  | inPort =>
    unfold Rpu.broken
    simp only
    split <;> exact .inl rfl
  | outPort =>
    cases ha : r.arbiter <;> simp [Rpu.broken, Rpu.setLink, ha]

/-- No reply begins to be sent when a line is lost: at most one being sent is cut short (R33). -/
theorem replies_lineLost {s t : State} (port : Port) (h : Safety.Replies s) (ht : execLineLost port s = .next t) :
    Safety.Replies t := by
  rcases execLineLost_cases ht with rfl | ⟨-, rfl⟩
  · exact h
  obtain ⟨hwaiting, hcached, hsending⟩ := h
  refine replies_send _ ⟨hwaiting, hcached, fun f hf => ?_⟩
  rcases broken_arbiter s.rpu port with ha | ha
  · exact hsending f (ha ▸ hf)
  · exact absurd (ha.symm.trans hf) nofun

/-- The reply being sent is the one that waited first (R37). -/
theorem replies_sendReplyBegin {s t : State} (h : Safety.Replies s) (ht : execSendReplyBegin s = .next t) :
    Safety.Replies t := by
  obtain ⟨hwaiting, hcached, hsending⟩ := h
  rcases execSendReplyBegin_cases ht with rfl | ⟨-, r, rest, hq, rfl⟩
  · exact ⟨hwaiting, hcached, hsending⟩
  refine ⟨fun x hx => hwaiting x (by rw [hq]; exact List.mem_cons_of_mem r hx), hcached, fun f hf => ?_⟩
  obtain rfl := Arbiter.sendingReply.inj hf
  exact hwaiting r (by rw [hq]; exact List.mem_cons_self)

/-- Age changes no frame (R38). -/
theorem frame_of_mem_age (q : Iq) (ms : Nat) (x : ReplyEntry) (hx : x ∈ (q.age ms).replies) :
    ∃ y ∈ q.replies, x.frame = y.frame := by
  obtain ⟨y, hy, rfl⟩ := List.mem_map.mp hx
  exact ⟨y, hy, rfl⟩

/-- Replies that only age, or of which some leave, stay well formed (R38). -/
theorem replies_aged {s : State} (ms : Nat) (l : List ReplyEntry) (h : Safety.Replies s)
    (hl : l ⊆ (s.iq.age ms).replies) : Safety.Replies { s with iq := { s.iq with replies := l } } := by
  obtain ⟨hwaiting, hcached, hsending⟩ := h
  refine ⟨fun x hx => ?_, hcached, hsending⟩
  obtain ⟨y, hy, hxy⟩ := frame_of_mem_age s.iq ms x (hl hx)
  exact hxy ▸ hwaiting y hy

theorem replies_evaluate {s : State} (f : Frame) (h : Safety.Replies s) : Safety.Replies (s.evaluate f) := by
  obtain ⟨mu, onWay, lag, n, hs⟩ := evaluate_eq s f
  rw [hs]
  exact h

theorem replies_startCommit {s : State} (o : CommitOrder) (h : Safety.Replies s) :
    Safety.Replies (s.startCommit o) := by
  unfold State.startCommit
  split_ifs
  · exact replies_complete _ _ h (by decide)
  · exact replies_complete _ _ h (by decide)
  · refine replies_complete _ _ ?_ (by decide)
    unfold State.reportTooLate
    split
    · exact h
    · exact replies_send _ h
  · exact h

theorem replies_finishValidation {s : State} (o : CommitOrder) (h : Safety.Replies s) :
    Safety.Replies (s.finishValidation o) := by
  unfold State.finishValidation
  split
  · refine replies_complete _ _ ?_ (by simp)
    unfold State.reportFailed
    split
    · exact h
    · exact replies_send _ h
  · split
    · refine replies_complete _ _ ?_ (by decide)
      unfold State.reportTooLate
      split
      · exact h
      · exact replies_send _ h
    · exact replies_complete _ _ h (by simp)

theorem replies_loadWindows {s : State} (e : CommandEntry) (h : Safety.Replies s) :
    Safety.Replies (s.loadWindows e) := by
  unfold State.loadWindows
  simp only
  split_ifs
  · exact replies_complete _ _ h (by decide)
  · exact replies_complete _ _ h (by decide)
  · exact replies_complete _ _ h (by decide)
  · exact replies_complete _ _ h (by simp)
  · exact replies_edit _ _ h (fun _ => by simp)

theorem replies_startStaged {s : State} (op : StagedOp) (x : Flight) (h : Safety.Replies s) :
    Safety.Replies (s.startStaged op x) := by
  unfold State.startStaged
  split
  · exact replies_complete _ _ h (by decide)
  · exact h

theorem replies_dropCommit {s : State} (h : Safety.Replies s) : Safety.Replies s.dropCommit := by
  unfold State.dropCommit
  split <;> exact h

theorem replies_replyDropped {s : State} (h : Safety.Replies s) : Safety.Replies s.replyDropped := by
  unfold State.replyDropped
  split
  · exact replies_complete _ _ h (by rw [droppedWords_length]; decide)
  · exact h

theorem replies_resumeStep {s : State} (g : ResumeStep) (h : Safety.Replies s) : Safety.Replies (s.resumeStep g) := by
  cases g with
  | records => exact h
  | mode => exact h
  | reply => exact replies_complete _ _ h (by decide)

theorem replies_resetStep {s : State} (level : ResetLevel) (g : ResetStep) (h : Safety.Replies s) :
    Safety.Replies (s.resetStep level g) := by
  cases g with
  | se => exact h
  | iq => cases level <;> exact h
  | rpu =>
    cases level with
    | tables => exact h
    | all => exact replies_of_same h (by simp [State.resetStep]) (by simp [State.resetStep]) rfl
  | mu =>
    cases level with
    | tables => exact h
    | all => exact replies_of_same (replies_acceptedBefore 0 (replies_deliver h)) rfl rfl rfl
  | reply => exact replies_complete _ _ h (by simp)

/-- RESET ALL forgets the replies that wait and those that are cached (R139). -/
theorem replies_resetCp {s : State} (h : Safety.Replies s) : Safety.Replies s.resetCp :=
  ⟨nofun, nofun, h.2.2⟩

/-- Every command keeps every reply held a well-formed REPLY frame (R12). -/
theorem replies_exec {c : Instr} {s t : State} (h : Safety.Replies s) (ht : exec c s = .next t) :
    Safety.Replies t := by
  cases c with
  | resetPinAsserted => cases ht; exact ⟨nofun, nofun, nofun⟩
  | resetPinReleased => cases ht; exact h
  | lineAcquired port =>
    rcases execLineAcquired_cases ht with rfl | ⟨-, -, rfl | rfl⟩
    · exact h
    · cases port <;> exact h
    · cases port <;> exact replies_send _ h
  | lineLost port => exact replies_lineLost port h ht
  | rxAbort cause =>
    rcases execRxAbort_cases ht with rfl | ⟨-, r, rfl⟩
    · exact h
    · exact replies_send _ h
  | receiveSample f => exact replies_receiveSample f h ht
  | receiveDamaged f => exact replies_receiveDamaged f h ht
  | receiveCommand f => exact replies_receiveCommand f h ht
  | receiveReply f => exact replies_receiveReply f h ht
  | receiveEnumerate f => exact replies_receiveEnumerate f h ht
  | receiveForeign f => exact replies_receiveForeign f h ht
  | sampleEvaluation =>
    rcases execSampleEvaluation_cases ht with rfl | ⟨-, f, _, -, -, rfl⟩
    · exact h
    · exact replies_evaluate f h
  | lostSample =>
    rcases execLostSample_cases ht with rfl | ⟨-, _, -, rfl⟩
    · exact h
    · exact replies_send _ h
  | sendForwardBegin =>
    rcases execSendForwardBegin_cases ht with rfl | ⟨-, -, -, rfl⟩
    · exact h
    · exact ⟨h.1, h.2.1, nofun⟩
  | sendReplyBegin => exact replies_sendReplyBegin h ht
  | frameForwarded =>
    rcases execFrameForwarded_cases ht with rfl | ⟨-, -, rfl⟩
    · exact h
    · exact replies_send _ ⟨h.1, h.2.1, nofun⟩
  | replySent =>
    rcases execReplySent_cases ht with rfl | ⟨-, rfl⟩
    · exact h
    · exact replies_send _ ⟨h.1, h.2.1, nofun⟩
  | outDiscard =>
    rcases execOutDiscard_cases ht with rfl | ⟨-, -, -, rfl⟩
    · exact h
    · exact replies_send _ h
  | replyExpired position =>
    rcases execReplyExpired_cases ht with rfl | ⟨-, r, l, -, rfl⟩
    · exact h
    · exact replies_send _ (replies_aged r.remaining _ h (List.eraseIdx_subset))
  | identify => cases ht; exact replies_begins _ _ h (fun _ _ _ => replies_complete _ _ h (by decide))
  | readStatus =>
    cases ht
    exact replies_begins _ _ h (fun _ _ _ => replies_complete _ _ (replies_deliver h) (by simp [State.statusWords]))
  | defineAxis => cases ht; exact replies_begins _ _ h (fun _ _ _ => replies_edit _ _ h (fun _ => by decide))
  | clearAxis => cases ht; exact replies_begins _ _ h (fun _ _ _ => replies_edit _ _ h (fun _ => by decide))
  | defineTrack => cases ht; exact replies_begins _ _ h (fun _ _ _ => replies_edit _ _ h (fun _ => by decide))
  | clearTrack => cases ht; exact replies_begins _ _ h (fun _ _ _ => replies_edit _ _ h (fun _ => by simp))
  | loadWindows => cases ht; exact replies_begins _ _ h (fun e _ _ => replies_loadWindows e h)
  | stageCopy => cases ht; exact replies_begins _ _ h (fun _ _ _ => replies_startStaged _ _ h)
  | stageClear => cases ht; exact replies_begins _ _ h (fun _ _ _ => replies_startStaged _ _ h)
  | defineStatusSlot => cases ht; exact replies_begins _ _ h (fun _ _ _ => replies_edit _ _ h (fun _ => by decide))
  | commit => cases ht; exact replies_begins _ _ h (fun _ _ _ => replies_startCommit _ h)
  | cancelCommit =>
    cases ht
    refine replies_begins _ _ h (fun _ _ _ => ?_)
    split
    · exact replies_complete _ _ h (by simp)
    · exact replies_complete _ _ h (by decide)
    · exact replies_complete _ _ h (by decide)
  | readAxis =>
    cases ht
    exact replies_begins _ _ h (fun _ _ _ => replies_complete _ _ h (by rw [axisWords_length]; decide))
  | readTrack =>
    cases ht
    exact replies_begins _ _ h (fun _ _ _ => replies_complete _ _ h (by rw [trackWords_length]; decide))
  | readWindows =>
    cases ht
    refine replies_begins _ _ h (fun e hc hr => ?_)
    have hcount := readWindows_count_le e hc hr
    simp only
    split
    · exact replies_complete _ _ h (by decide)
    · refine replies_complete _ _ h ?_
      rw [windowWords_length, List.length_take]
      omega
  | readPool =>
    cases ht
    exact replies_begins _ _ h (fun _ _ _ => replies_complete _ _ h (by simp [State.poolWords]))
  | readFault =>
    cases ht
    exact replies_begins _ _ h (fun _ _ _ =>
      replies_complete _ _ (replies_atRead h) (by rw [faultWords_length]; decide))
  | clearFault =>
    cases ht
    exact replies_begins _ _ h (fun _ _ _ =>
      replies_complete _ _ (replies_of_same (replies_atRead h) rfl rfl rfl) (by rw [faultWords_length]; decide))
  | readCounters =>
    cases ht
    refine replies_begins _ _ h (fun _ _ _ => ?_)
    split
    · exact replies_complete _ _ (replies_of_same (replies_atCount h) rfl rfl rfl)
        (by rw [counterWords_length]; decide)
    · exact replies_complete _ _ (replies_atCount h) (by rw [counterWords_length]; decide)
  | setAttentionMask => cases ht; exact replies_begins _ _ h (fun _ _ _ => replies_complete _ _ h (by decide))
  | ackAttention =>
    cases ht
    exact replies_begins _ _ h (fun _ _ _ =>
      replies_complete _ _ (replies_of_same (replies_deliver h) rfl rfl rfl) (by simp [latchWords]))
  | setReplyLifetime => cases ht; exact replies_begins _ _ h (fun _ _ _ => replies_complete _ _ h (by simp))
  | bypass =>
    cases ht
    refine replies_begins _ _ h (fun _ _ _ => ?_)
    split
    · exact h
    · exact replies_complete _ _ h (by decide)
  | resume =>
    cases ht
    refine replies_begins _ _ h (fun _ _ _ => ?_)
    split
    · exact h
    · exact replies_complete _ _ h (by decide)
  | releaseAddress =>
    have hreply : Safety.Replies s.nextPause.replyReleasing :=
      replies_of_same (replies_complete (s := s.nextPause) .ok [] h (by decide)) rfl rfl rfl
    rcases execReleaseAddress_cases ht with ⟨-, -, rfl⟩ | rfl
    · exact h
    · refine replies_begins _ _ h (fun _ _ _ => ?_)
      split <;> exact hreply
  | resetTables => cases ht; exact replies_beginsIf _ _ h (fun _ _ _ => h)
  | resetAll => cases ht; exact replies_beginsIf _ _ h (fun _ _ _ => replies_resetCp h)
  | unknownCommand => cases ht; exact replies_beginsIf _ _ h (fun _ _ _ => h)
  | validationComplete =>
    rcases execValidationComplete_cases ht with rfl | ⟨-, -, o, -, rfl⟩
    · exact h
    · exact replies_finishValidation o h
  | copyComplete =>
    rcases execCopyComplete_cases ht with rfl | ⟨-, -, rfl⟩
    · exact h
    · exact replies_complete _ _ h (by simp)
  | clearComplete =>
    rcases execClearComplete_cases ht with rfl | ⟨-, -, rfl⟩
    · exact h
    · exact replies_complete _ _ h (by decide)
  | commitDrop =>
    rcases execCommitDrop_cases ht with rfl | ⟨-, ⟨-, rfl | rfl⟩ | ⟨-, rfl⟩⟩
    · exact h
    · exact replies_dropCommit (s := s.nextPause) h
    · exact replies_replyDropped (replies_dropCommit (s := s.nextPause) h)
    · exact replies_replyDropped h
  | dynamicRecordClear last =>
    rcases execDynamicRecordClear_cases ht with rfl | ⟨-, next, -, rfl⟩
    · exact h
    · exact List.foldlRecOn _ _ h (fun _ hu g _ => replies_resumeStep g hu)
  | seTableReset last =>
    rcases execSeTableReset_cases ht with rfl | ⟨-, level, next, -, rfl⟩
    · exact h
    · exact List.foldlRecOn _ _ h (fun _ hu g _ => replies_resetStep level g hu)

/-- While no command waits the replies only age (R38; log entry 3). -/
theorem replies_idle {s : State} (h : Safety.Replies s) : Safety.Replies s.idle := by
  have hd := replies_deliver h
  rcases pass_cases s.deliver with ⟨r, p, l, hs⟩ | hs
  · rw [State.idle, hs]
    exact hd
  · rw [State.idle, hs]
    exact replies_aged 1 _ hd (List.Subset.refl _)

/-- Settles O59, by the case of each command; new replies come from completion alone, whose result lists hold at most
32 words. -/
theorem everyStepKeepsRepliesWellFormed : Obligations.EveryStepKeepsRepliesWellFormed := by
  intro s t h ht
  cases hp : s.pending with
  | nil =>
    rw [step, hp] at ht
    cases ht
    exact replies_idle h
  | cons c rest =>
    rw [step, hp] at ht
    exact replies_exec (s := { s with pending := rest }) h ht

end Sys2Proof.Proofs

/-!
PROOFS. Reception of lost samples, and the intake of unicast commands.
-/
namespace Sys2Proof.Proofs

open Sys2Proof.Machine Sys2Proof.Claims

/-! ### Frames that arrive (R22, R30) -/

/-- A frame that arrives is received (R22, R182). -/
theorem receives_of_arrives {s : State} {f : Frame} (h : Arrives s f) : s.receives f = true := by
  obtain ⟨hheld, hup, hlen⟩ := h
  simp [State.receives, hheld, hup, Config.receiveBytes, hlen]

/-- With a place in the forward queue the frame's routes are taken (R30). -/
theorem ifRoom_of_hasRoom {s : State} (h : HasRoom s) (f : Frame) (routes : State → State) :
    s.endReception.ifRoom f routes = routes s.endReception :=
  if_neg (Nat.not_le.mpr h)

/-- A frame forwarded unchanged, once its reception has ended (R28). -/
theorem forwardReady_endReception (s : State) (f : Frame) : s.endReception.forwardReady f = placed s f .ready := rfl

/-- What an announcement changes: outside BYPASS a lost sample is on its way to the SE (R25). -/
theorem announceLost_eq (s : State) :
    s.announceLost = { s with rpu := { s.rpu with
      handed := if s.rpu.mode = .bypass then s.rpu.handed else s.rpu.handed ++ [.lost] } } := by
  unfold State.announceLost
  split <;> rfl

/-- A lost sample, once its reception has ended: announced except in BYPASS, and forwarded unchanged (R25). -/
theorem routeLost_endReception (s : State) (f : Frame) :
    s.endReception.routeLost f = { s with
      rpu := { (placed s f .ready).rpu with
        handed := if s.rpu.mode = .bypass then s.rpu.handed else s.rpu.handed ++ [.lost] } } := by
  rw [State.routeLost, announceLost_eq]
  rfl

/-- Settles O13: each frame has a place, so its routes are taken, and they are those of a lost sample or of a frame
forwarded only. -/
theorem lostSampleIsAnnouncedAndForwarded : Obligations.LostSampleIsAnnouncedAndForwarded := by
  intro s f ha hroom
  refine ⟨fun hc => ?_, fun hc hk => ?_, fun hc hk => ?_⟩
  · show execReceiveSample f s = _
    rw [execReceiveSample, if_pos (receives_of_arrives ha), hc]
    exact congrArg _ ((ifRoom_of_hasRoom hroom f _).trans (routeLost_endReception s f))
  · show execReceiveDamaged f s = _
    rw [execReceiveDamaged, if_pos (receives_of_arrives ha), hc]
    refine congrArg _ ((ifRoom_of_hasRoom hroom f _).trans ?_)
    rw [if_pos hk, routeLost_endReception]
  · show execReceiveDamaged f s = _
    rw [execReceiveDamaged, if_pos (receives_of_arrives ha), hc]
    refine congrArg _ ((ifRoom_of_hasRoom hroom f _).trans ?_)
    rw [if_neg hk, forwardReady_endReception]

/-! ### The intake of the CP (R126, R132) -/

/-- A unicast command to the part that is longer than 6 bytes is offered to the CP (R26, R129). -/
theorem exec_receiveCommand_toPart {s : State} {f : Frame} {valid : Bool} (ha : Arrives s f)
    (hc : classify f = .command valid) (ht : ToPart s f) (hl : f.length ≠ 6) :
    exec (.receiveCommand f) s = .next (s.endReception.offerUnicast (entryOf f valid .unicast)) := by
  obtain ⟨hlen, hdest, haddr⟩ := ht
  have hhere : s.unicastHere f = true := by simp [State.unicastHere, hlen, hdest, haddr]
  show execReceiveCommand f s = _
  rw [execReceiveCommand, if_pos (receives_of_arrives ha), hc]
  simp only [hhere, if_true, State.takeUnicast, if_neg hl]

/-- An offered command is no duplicate when its tag is 0 or no retry entry has its source and tag (R126 test 1). -/
theorem duplicateOf_eq_none {table : List RetryEntry} {e : CommandEntry}
    (h : e.tagValue = 0#16 ∨ ∀ r, r ∈ table → r.source = e.source → r.tag ≠ e.tagValue) :
    duplicateOf table e = none := by
  unfold duplicateOf
  split
  · rfl
  · next htag =>
    rw [List.find?_eq_none]
    intro r hr
    simpa using h.resolve_left htag r hr

/-- An offered command that is no duplicate and finds its places is accepted (R126 test 4). -/
theorem offerUnicast_accepted {s : State} {e : CommandEntry} (hd : duplicateOf s.cp.retry e = none)
    (hq : s.cp.queue.length < 4) (hp : s.iq.places < 6) : s.offerUnicast e = s.acceptUnicast e := by
  have hqueue : ¬ Config.commandPlaces ≤ s.cp.queue.length := Nat.not_le.mpr hq
  have hplaces : ¬ Config.replyPlaces ≤ s.iq.places := Nat.not_le.mpr hp
  simp only [State.offerUnicast, hd, if_neg hqueue, if_neg hplaces]

/-- The entry that a tagged command accepted from a source puts at the end of the retry table (R132). -/
def newEntry (source : Byte) (tag : Half) : RetryEntry := { source := source, tag := tag, cached := none }

/-- The source's own entry makes way for the new one (R132). -/
theorem acceptTag_of_mem {table : List RetryEntry} {source : Byte} {tag : Half}
    (h : ∃ r, r ∈ table ∧ r.source = source) :
    acceptTag table source tag = table.filter (fun r => r.source != source) ++ [newEntry source tag] :=
  if_pos (by simpa using h)

/-- A source without an entry takes a free one while there is one (R132). -/
theorem acceptTag_of_room {table : List RetryEntry} {source : Byte} {tag : Half}
    (h : ∀ r, r ∈ table → r.source ≠ source) (hroom : table.length < 4) :
    acceptTag table source tag = table ++ [newEntry source tag] := by
  unfold acceptTag
  simp only
  rw [if_neg (by simpa using h), if_pos (show table.length < Config.retryPlaces from hroom)]
  rfl

/-- The least recent DONE entry is the first one that caches a reply (R131, R132). -/
theorem dropOldestDone_at {before after : List RetryEntry} {r : RetryEntry}
    (hb : ∀ x, x ∈ before → x.cached = none) (hr : r.cached ≠ none) :
    dropOldestDone (before ++ r :: after) = some (before ++ after) := by
  induction before with
  | nil => exact if_pos (Option.isSome_iff_ne_none.mpr hr)
  | cons x rest ih =>
    have hx : x.cached = none := hb x List.mem_cons_self
    simp [dropOldestDone, hx, ih (fun y hy => hb y (List.mem_cons_of_mem x hy))]

/-- In a full table the least recent DONE entry makes way (R132). -/
theorem acceptTag_of_full {table before after : List RetryEntry} {r : RetryEntry} {source : Byte} {tag : Half}
    (h : ∀ r, r ∈ table → r.source ≠ source) (hfull : 4 ≤ table.length) (ht : table = before ++ r :: after)
    (hb : ∀ x, x ∈ before → x.cached = none) (hr : r.cached ≠ none) :
    acceptTag table source tag = before ++ after ++ [newEntry source tag] := by
  unfold acceptTag
  simp only
  rw [if_neg (by simpa using h), if_neg (by simpa [Config.retryPlaces] using hfull), ht, dropOldestDone_at hb hr]
  rfl

/-! ### The entry a COMMAND frame makes (R124, R129, Table 1-3) -/

theorem entryOf_tag (f : Frame) (valid : Bool) (origin : Origin) :
    (entryOf f valid origin).tag = if 9 ≤ f.length then some (byteAt f 3 ++ byteAt f 4) else none := by
  rw [entryOf, halfAt_eq_append]

/-- The argument words of a well-formed frame, each of its four bytes (Table 1-3). -/
theorem entryOf_args_getElem? (f : Frame) (origin : Origin) (j : Nat) (hj : j < (byteAt f 6).toNat) :
    (entryOf f true origin).args[j]?
      = some (byteAt f (7 + 4 * j) ++ byteAt f (8 + 4 * j) ++ byteAt f (9 + 4 * j) ++ byteAt f (10 + 4 * j)) := by
  show ((List.range (byteAt f 6).toNat).map (fun j => wordAt f (7 + 4 * j)))[j]? = _
  rw [List.getElem?_map, List.getElem?_range hj, Option.map_some, wordAt_eq_append,
    show 7 + 4 * j + 1 = 8 + 4 * j by omega, show 7 + 4 * j + 2 = 9 + 4 * j by omega,
    show 7 + 4 * j + 3 = 10 + 4 * j by omega]

/-- Settles O16: the command is offered and accepted; the retry table by the cases of `acceptTag`; the entry by its
definition. -/
theorem unicastCommandIsAccepted : Obligations.UnicastCommandIsAccepted := by
  refine ⟨fun s f valid e ha hc ht hl he hq hp => ?_, fun f valid origin e _ he => ?_⟩
  · have accepted (hd : duplicateOf s.cp.retry e = none) :
        exec (.receiveCommand f) s = .next (s.endReception.acceptUnicast e) := by
      rw [exec_receiveCommand_toPart ha hc ht hl, ← he, offerUnicast_accepted (s := s.endReception) hd hq hp]
    refine ⟨fun htag => ?_, fun htag hnew => ⟨acceptTag s.cp.retry e.source e.tagValue, ?_, acceptTag_of_mem,
      acceptTag_of_room, fun before r after => acceptTag_of_full⟩⟩
    · rw [accepted (duplicateOf_eq_none (.inl htag)), State.acceptUnicast, if_pos htag]
      rfl
    · rw [accepted (duplicateOf_eq_none (.inr hnew)), State.acceptUnicast, if_neg htag]
      rfl
  · subst he
    have htag := entryOf_tag f valid origin
    refine ⟨rfl, rfl, rfl, by simp [entryOf], fun h => ?_, fun h => ?_, fun h => ?_, fun h => ?_,
      fun h => if_neg (by omega), fun h => if_pos h, ?_, ?_⟩
    · rw [if_neg (by omega)] at htag
      exact ⟨htag, by rw [CommandEntry.tagValue, htag]; rfl⟩
    · rw [if_pos h] at htag
      exact ⟨htag, by rw [CommandEntry.tagValue, htag]; rfl⟩
    · have hcode : (entryOf f valid origin).code = none := if_neg (by omega)
      exact ⟨hcode, by rw [CommandEntry.codeValue, hcode]; rfl⟩
    · have hcode : (entryOf f valid origin).code = some (byteAt f 5) := if_pos h
      exact ⟨hcode, by rw [CommandEntry.codeValue, hcode]; rfl⟩
    · rintro rfl
      rfl
    · rintro rfl
      exact ⟨by simp [entryOf], entryOf_args_getElem? f origin⟩

end Sys2Proof.Proofs

/-!
PROOFS. The frame that the SE hands back: which bytes an evaluation may change.
-/
namespace Sys2Proof.Proofs

open Sys2Proof.Machine Sys2Proof.Claims

/-! ### The slots of a SAMPLE frame (R8, R9, R87) -/

/-- A slot is an ACTION slot exactly when its type byte is 2 (R8). -/
theorem slotRole_eq_action_iff (f : Frame) (o : Nat) : slotRole f o = .action ↔ byteAt f (o + 1) = 2#8 := by
  unfold slotRole SlotRole.ofByte
  split_ifs <;> simp_all

/-- A slot is a STATUS slot exactly when its type byte is 3 (R8). -/
theorem slotRole_eq_status_iff (f : Frame) (o : Nat) : slotRole f o = .status ↔ byteAt f (o + 1) = 3#8 := by
  unfold slotRole SlotRole.ofByte
  split_ifs <;> simp_all

/-- The owned slot ids are those that an enabled track names (R87). -/
theorem mem_ownedSlots_iff (b : Bank) (id : Byte) : id ∈ b.ownedSlots ↔ Owned b id := by
  simp [Bank.ownedSlots, Owned, List.mem_eraseDups, List.mem_filterMap]

/-! ### Frames that differ in slot values only (R15, R88) -/

/-- The frame `g` is as long as `f`, and differs from it at most in the values of found slots that are `writable`. -/
def DiffersInValues (f g : Frame) (writable : Byte → Nat → Prop) : Prop :=
  g.length = f.length ∧ ∀ k, byteAt g k ≠ byteAt f k →
    ∃ id o, findSlot f id = some o ∧ o + 2 ≤ k ∧ k < o + 6 ∧ writable id o

theorem differsInValues_refl (f : Frame) (writable : Byte → Nat → Prop) : DiffersInValues f f writable :=
  ⟨rfl, fun _ h => absurd rfl h⟩

/-- With more slots writable the frames still differ in no other byte. -/
theorem DiffersInValues.mono {f g : Frame} {P Q : Byte → Nat → Prop} (h : DiffersInValues f g P)
    (hpq : ∀ id o, P id o → Q id o) : DiffersInValues f g Q := by
  refine ⟨h.1, fun k hk => ?_⟩
  obtain ⟨id, o, ho, hlo, hhi, hp⟩ := h.2 k hk
  exact ⟨id, o, ho, hlo, hhi, hpq id o hp⟩

/-- The bytes before the slots, and the id and type bytes of every slot, are the same. -/
theorem DiffersInValues.byteAt_eq {f g : Frame} {P : Byte → Nat → Prop} (h : DiffersInValues f g P) (k : Nat)
    (hk : k < 6 ∨ k % 6 < 2) : byteAt g k = byteAt f k := by
  by_contra hne
  obtain ⟨id, o, ho, hlo, hhi, -⟩ := h.2 k hne
  obtain ⟨i, -, rfl, -⟩ := findSlot_some f id o ho
  omega

theorem DiffersInValues.findSlot_eq {f g : Frame} {P : Byte → Nat → Prop} (h : DiffersInValues f g P) (id : Byte) :
    findSlot g id = findSlot f id := by
  have hcount : slotCount g = slotCount f := congrArg BitVec.toNat (h.byteAt_eq 5 (by omega))
  have hid (i : Nat) : byteAt g (6 + 6 * i) = byteAt f (6 + 6 * i) := h.byteAt_eq _ (by omega)
  simp only [findSlot, hcount, hid]

theorem DiffersInValues.slotRole_eq {f g : Frame} {P : Byte → Nat → Prop} (h : DiffersInValues f g P) {id : Byte}
    {o : Nat} (ho : findSlot f id = some o) : slotRole g o = slotRole f o := by
  obtain ⟨i, -, rfl, -⟩ := findSlot_some f id o ho
  rw [slotRole, slotRole, h.byteAt_eq _ (by omega)]

/-- The value of a writable slot may be written. -/
theorem DiffersInValues.putSlotValue {f g : Frame} {P : Byte → Nat → Prop} (h : DiffersInValues f g P) {id : Byte}
    {o : Nat} (ho : findSlot f id = some o) (hp : P id o) (w : Word) :
    DiffersInValues f (putSlotValue g o w) P := by
  refine ⟨(putSlotValue_length g o w).trans h.1, fun k hk => ?_⟩
  by_cases hin : o + 2 ≤ k ∧ k < o + 6
  · exact ⟨id, o, ho, hin.1, hin.2, hp⟩
  · rw [Machine.putSlotValue, byteAt_putWord_of_outside _ _ _ _ (by omega)] at hk
    exact h.2 k hk

/-! ### The frame as it is handed back (R16, R88, R92, R93) -/

/-- A fresh CRC changes no byte before it (R16). -/
theorem byteAt_resealed (f : Frame) (k : Nat) (h : k < f.length - 4) : byteAt (resealed f) k = byteAt f k :=
  byteAt_putWord_of_outside _ _ _ _ (.inl h)

/-- A valid SAMPLE frame with other slot values and a fresh CRC is a valid SAMPLE frame (R5, R16). -/
theorem classify_resealed {f g : Frame} {P : Byte → Nat → Prop} (hf : classify f = .sample true)
    (h : DiffersInValues f g P) : classify (resealed g) = .sample true := by
  obtain ⟨-, hkind, hle, hlen⟩ := (classify_eq_valid_sample_iff f).mp hf
  have hlong : 10 ≤ g.length := by rw [h.1]; omega
  have hcount : slotCount (resealed g) = slotCount f := by
    rw [slotCount, byteAt_resealed _ _ (by omega), h.byteAt_eq 5 (by omega)]
    rfl
  rw [classify_eq_valid_sample_iff, covered_resealed, heldCrc_resealed g (by omega), hcount, resealed_length, h.1,
    byteAt_resealed _ _ (by omega), h.byteAt_eq 0 (by omega)]
  exact ⟨rfl, hkind, hle, hlen⟩

/-- A slot that the SE writes: of type ACTION under an owned id (R88). -/
def ActionWritable (b : Bank) (f : Frame) (id : Byte) (o : Nat) : Prop := Owned b id ∧ byteAt f (o + 1) = 2#8

/-- A slot that the SE writes: of type ACTION under an owned id (R88), or the status slot of type STATUS (R92). -/
def Writable (b : Bank) (f : Frame) (id : Byte) (o : Nat) : Prop :=
  ActionWritable b f id o ∨ (b.statusSlot = some id ∧ byteAt f (o + 1) = 3#8)

/-- The work for one owned slot id writes at most its first slot, when that is of type ACTION (R88 to R90). -/
theorem differsInValues_ownSlot {e : Se} {f : Frame} {w : SlotWork} {id : Byte} (hid : Owned e.active id)
    (hw : DiffersInValues f w.frame (ActionWritable e.active f)) (hkept : w.wrote = false → w.frame = f) :
    DiffersInValues f (e.ownSlot w id).frame (ActionWritable e.active f)
      ∧ ((e.ownSlot w id).wrote = false → (e.ownSlot w id).frame = f) := by
  unfold Se.ownSlot
  rw [hw.findSlot_eq id]
  cases ho : findSlot f id with
  | none => exact ⟨hw, hkept⟩
  | some o =>
    simp only
    rw [hw.slotRole_eq ho]
    cases hr : slotRole f o with
    | action => exact ⟨hw.putSlotValue ho ⟨hid, (slotRole_eq_action_iff f o).mp hr⟩ _, nofun⟩
    | position => exact ⟨hw, hkept⟩
    | status => exact ⟨hw, hkept⟩
    | opaqueRole => exact ⟨hw, hkept⟩

/-- The ACTION writes change the values of first slots of owned ids of type ACTION alone, and nothing where none is
written (R87, R88). -/
theorem differsInValues_writeActions (e : Se) (f : Frame) :
    DiffersInValues f (e.writeActions f).frame (ActionWritable e.active f)
      ∧ ((e.writeActions f).wrote = false → (e.writeActions f).frame = f) :=
  List.foldlRecOn e.active.ownedSlots e.ownSlot
    (motive := fun w => DiffersInValues f w.frame (ActionWritable e.active f) ∧ (w.wrote = false → w.frame = f))
    ⟨differsInValues_refl f _, fun _ => rfl⟩
    (fun _ hw id hid => differsInValues_ownSlot ((mem_ownedSlots_iff _ id).mp hid) hw.1 hw.2)

/-- The offset at which the status word is written is that of the status slot's first slot, of type STATUS (R92). -/
theorem statusOffset_eq_some {e : Se} {f : Frame} {o : Nat} (h : e.statusOffset f = some o) :
    ∃ id, e.active.statusSlot = some id ∧ findSlot f id = some o ∧ slotRole f o = .status := by
  unfold Se.statusOffset at h
  split at h
  · cases h
  · next id hid =>
    split at h
    · cases h
    · next o' ho =>
      split at h <;> cases h
      exact ⟨id, hid, ho, by assumption⟩

/-- The frame handed back is the frame received, or one that differs from it in writable values and has a fresh CRC
(R15, R16, R93). -/
theorem handedBackFrame_cases (s : State) (f : Frame) :
    handedBackFrame s f = f
      ∨ ∃ g, DiffersInValues f g (Writable (s.se.evaluated f).active f) ∧ handedBackFrame s f = resealed g := by
  obtain ⟨hactions, hkept⟩ := differsInValues_writeActions (s.se.evaluated f) f
  have hwrites : DiffersInValues f ((s.se.evaluated f).writeActions f).frame (Writable (s.se.evaluated f).active f) :=
    hactions.mono (fun _ _ h => .inl h)
  unfold handedBackFrame
  split
  · next o ho =>
    obtain ⟨id, hid, hslot, hrole⟩ := statusOffset_eq_some ho
    rw [hwrites.findSlot_eq] at hslot
    rw [hwrites.slotRole_eq hslot, slotRole_eq_status_iff] at hrole
    exact .inr ⟨_, hwrites.putSlotValue hslot (.inr ⟨hid, hrole⟩) _, rfl⟩
  · unfold SlotWork.leaving
    split
    · exact .inr ⟨_, hwrites, rfl⟩
    · exact .inl rfl

/-- Evaluating the frame that is due is the step of SAMPLE_EVALUATION (R48). -/
theorem exec_sampleEvaluation {s : State} {f : Frame} {handed : List Handed} (h : Evaluates s f handed) :
    exec .sampleEvaluation s = .next (s.evaluate f) := by
  obtain ⟨hheld, hhanded, hfirst⟩ := h
  show execSampleEvaluation s = _
  simp only [execSampleEvaluation, hheld, hhanded, hfirst, Bool.false_eq_true, if_false]

/-- Settles O45, by the two ways a frame is handed back. -/
theorem evaluatedFrameChangesOnlyOwnedSlots : Obligations.EvaluatedFrameChangesOnlyOwnedSlots := by
  intro s f handed hev hf
  obtain ⟨mu, onWay, lag, n, ht⟩ := evaluate_eq s f
  have hse : (s.evaluate f).se = s.se.evaluated f := by rw [ht]
  refine ⟨s.evaluate f, handedBackFrame s f, exec_sampleEvaluation hev, by rw [ht]; rfl, ?_⟩
  rw [hse]
  rcases handedBackFrame_cases s f with hg | ⟨g, hg, hback⟩
  · rw [hg]
    exact ⟨rfl, hf, fun k _ hne => absurd rfl hne⟩
  · rw [hback]
    refine ⟨(resealed_length g).trans hg.1, classify_resealed hf hg, fun k hk hne => ?_⟩
    rw [byteAt_resealed g k (by rw [hg.1]; exact hk)] at hne
    exact hg.2 k hne

end Sys2Proof.Proofs

/-!
PROOFS. What a step can change in the RPU, the IQ and the CP, one move at a time, for the invariants to cite.
-/
namespace Sys2Proof.Proofs

open Sys2Proof.Machine Sys2Proof.Claims

/-! ### The moves of the RPU, the IQ and the CP -/

/-- One change of the RPU, the IQ or the CP, with what the state admits it by. Every step is a run of these
(`moves_of_step`), so a law of the three blocks that every move keeps holds at every step. -/
inductive Move : State → State → Prop where
  /-- The SE, the MU with what is on its way to it, or the model's own fields change. -/
  | elsewhere {s t : State} (hrpu : t.rpu = s.rpu) (hiq : t.iq = s.iq) (hcp : t.cp = s.cp) : Move s t
  /-- The reset pin (R182). -/
  | pin {s t : State} (hrpu : t.rpu = .reset) (hiq : t.iq = .reset) (hcp : t.cp = .reset) : Move s t
  /-- The links, the reception or the last cycle seen of the RPU change (R21, R22, R41). -/
  | line {s : State} {r : Rpu} (hforward : r.forward = s.rpu.forward) (hhanded : r.handed = s.rpu.handed)
      (harbiter : r.arbiter = s.rpu.arbiter) (haddress : r.address = s.rpu.address) (hmode : r.mode = s.rpu.mode) :
      Move s { s with rpu := r }
  /-- A frame joins the forward queue ready (R29, R30). -/
  | join {s : State} (f : Frame) (hroom : s.rpu.forward.length < 2) : Move s { s with rpu := s.rpu.join f .ready }
  /-- A SAMPLE frame joins the forward queue in evaluation and is handed to the SE (R24, R30). -/
  | hand {s : State} (f : Frame) (hroom : s.rpu.forward.length < 2) :
      Move s { s with rpu := { s.rpu.join f .inEvaluation with handed := s.rpu.handed ++ [.sample] } }
  /-- A lost sample is announced to the SE (R25). -/
  | announce {s : State} : Move s { s with rpu := { s.rpu with handed := s.rpu.handed ++ [.lost] } }
  /-- The SE takes a lost-sample announcement (R48). -/
  | takeLost {s : State} {rest : List Handed} (hhanded : s.rpu.handed = .lost :: rest) :
      Move s { s with rpu := { s.rpu with handed := rest } }
  /-- The SE takes a frame and hands it back (R24, R48). -/
  | handBack {s : State} {f : Frame} {rest : List Handed} (g : Frame) (hhanded : s.rpu.handed = .sample :: rest)
      (hframe : inEvaluation s.rpu.forward = some f) : Move s { s with rpu := s.rpu.handedBack g }
  /-- The arbiter begins to send the ready head (R31). -/
  | sendHead {s : State} (hhead : s.rpu.readyHead.isSome = true) :
      Move s { s with rpu := { s.rpu with arbiter := .sendingForward } }
  /-- The arbiter takes the head reply, which leaves the reply queue (R37). -/
  | sendReply {s : State} {r : ReplyEntry} {rest : List ReplyEntry} (hreplies : s.iq.replies = r :: rest) :
      Move s { s with rpu := { s.rpu with arbiter := .sendingReply r.frame }, iq := { s.iq with replies := rest } }
  /-- The arbiter returns to IDLE (R32, R33). -/
  | endSending {s : State} : Move s { s with rpu := { s.rpu with arbiter := .idle } }
  /-- The frame being sent, or a ready head, leaves the forward queue (R32, R33). -/
  | leave {s : State} (hhead : s.rpu.arbiter = .sendingForward ∨ s.rpu.readyHead.isSome = true) :
      Move s { s with rpu := { s.rpu with arbiter := .idle, forward := s.rpu.forward.tail } }
  /-- An UNADDRESSED part takes an address (R175). -/
  | takeAddress {s : State} (a : Byte) (ha : assignable a = true) :
      Move s { s with rpu := { s.rpu with address := a, mode := .running } }
  /-- BYPASS is entered from RUNNING (R177). -/
  | bypass {s : State} (hmode : s.rpu.mode = .running) : Move s (s.setMode .bypass)
  /-- A RESUME in flight sets the mode to RUNNING (R179). -/
  | run {s : State} (hflight : ∃ g, s.cp.flight = .resuming g) : Move s (s.setMode .running)
  /-- The address is released (R180). -/
  | giveUp {s : State} : Move s s.giveUpAddress
  /-- The RPU at its step of RESET ALL (R186). -/
  | resetRpu {s : State} : Move s { s with rpu := s.rpu.resetAll }
  /-- The settings of the IQ change, replies age, or some leave (R38, R43, R167). -/
  | keepPlaces {s : State} {q : Iq} (hreplies : q.replies.length ≤ s.iq.replies.length)
      (hreserved : q.reserved = s.iq.reserved) : Move s { s with iq := q }
  /-- A copy of a cached reply joins the reply queue (R36, R127). -/
  | copy {s : State} (f : Frame) (hroom : s.iq.places < 6) : Move s { s with iq := s.iq.joinCopy f }
  /-- A unicast command is accepted, with or without a change of the retry table (R126, R132). -/
  | accept {s : State} (e : CommandEntry) (retry : List RetryEntry) (horigin : e.origin = .unicast)
      (hqueue : s.cp.queue.length < 4) (hplaces : s.iq.places < 6)
      (hretry : retry = s.cp.retry ∨ retry = acceptTag s.cp.retry e.source e.tagValue) :
      Move s { s with
        cp := { s.cp with queue := s.cp.queue ++ [e], retry := retry }
        iq := { s.iq with reserved := s.iq.reserved + 1 } }
  /-- A broadcast is accepted (R130). -/
  | acceptBroadcast {s : State} (e : CommandEntry) (horigin : e.origin = .broadcast)
      (hqueue : s.cp.queue.length < 4) : Move s { s with cp := { s.cp with queue := s.cp.queue ++ [e] } }
  /-- The command at the head completes (R136). -/
  | complete {s : State} (status : Status) (words : List Word) : Move s (s.complete status words)
  /-- The command at the head goes into flight or its next request becomes due; a RESUME does so in BYPASS only
  (R134, R179). -/
  | fly {s : State} (x : Flight)
      (hresume : ∀ g, x = .resuming g → s.rpu.mode = .bypass ∨ ∃ g', s.cp.flight = .resuming g') :
      Move s (s.setFlight x)
  /-- RESET ALL's own part of the CP (R139). -/
  | resetCp {s : State} : Move s s.resetCp

/-- A run of moves. -/
abbrev Moves : State → State → Prop := Relation.ReflTransGen Move

theorem Moves.elsewhere {s u t : State} (h : Moves s u) (hrpu : t.rpu = u.rpu) (hiq : t.iq = u.iq)
    (hcp : t.cp = u.cp) : Moves s t :=
  h.tail (.elsewhere hrpu hiq hcp)

theorem moves_send {s u : State} {l : List (List Notice)} (h : Moves s u) : Moves s (u.send l) :=
  h.elsewhere (send_rpu u l) (send_iq u l) (send_cp u l)

theorem moves_deliver {s u : State} (h : Moves s u) : Moves s u.deliver :=
  h.elsewhere (deliver_rpu u) (deliver_iq u) (deliver_cp u)

theorem moves_complete {s u : State} {status : Status} {words : List Word} (h : Moves s u) :
    Moves s (u.complete status words) :=
  h.tail (.complete status words)

theorem moves_fly {s u : State} {x : Flight} (h : Moves s u) (hx : ∀ g, x ≠ .resuming g) :
    Moves s (u.setFlight x) :=
  h.tail (.fly x (fun g hg => absurd hg (hx g)))

/-! ### The shared operations -/

theorem moves_endReception (s : State) : Moves s s.endReception := .single (.line rfl rfl rfl rfl rfl)

/-- A frame whose reception ends is dropped, or finds a place and takes its routes (R30). -/
theorem moves_ifRoom {s : State} (f : Frame) (routes : State → State)
    (hroutes : s.endReception.rpu.forward.length < 2 → Moves s.endReception (routes s.endReception)) :
    Moves s (s.endReception.ifRoom f routes) := by
  rcases ifRoom_cases s.endReception f routes with ⟨-, h⟩ | ⟨hroom, h⟩ <;> rw [h]
  · exact moves_send (moves_endReception s)
  · exact (moves_endReception s).trans (hroutes hroom)

theorem moves_forwardReady {s : State} (f : Frame) (hroom : s.rpu.forward.length < 2) :
    Moves s (s.forwardReady f) :=
  .single (.join f hroom)

theorem moves_routeLost {s : State} (f : Frame) (hroom : s.rpu.forward.length < 2) : Moves s (s.routeLost f) := by
  unfold State.routeLost State.announceLost
  split
  · exact moves_forwardReady f hroom
  · exact .tail (.single .announce) (.join f hroom)

theorem moves_routeSample {s : State} (f : Frame) (hroom : s.rpu.forward.length < 2) : Moves s (s.routeSample f) := by
  have settings (u : State) : Moves u { u with
      rpu := { u.rpu with lastCycle := some (cycleOf f) }, iq := u.iq.takeQuiet (quietOf f) } := by
    have seen : Moves u { u with rpu := { u.rpu with lastCycle := some (cycleOf f) } } :=
      .single (.line rfl rfl rfl rfl rfl)
    exact seen.tail (.keepPlaces (Nat.le_refl _) rfl)
  unfold State.routeSample
  split
  · exact .trans (.single (.join f hroom)) (settings _)
  · exact .trans (.single (.hand f hroom)) (settings _)

theorem moves_routeEnumerate {s : State} (f : Frame) (hroom : s.rpu.forward.length < 2) :
    Moves s (s.routeEnumerate f) := by
  unfold State.routeEnumerate
  split
  · next h => exact .tail (.single (.join _ hroom)) (.takeAddress _ h.2)
  · exact .single (.join _ hroom)

theorem moves_takeDuplicate (s : State) (r : RetryEntry) : Moves s (s.takeDuplicate r) := by
  unfold State.takeDuplicate
  split
  · exact moves_send .refl
  · split
    · next hroom => exact moves_send (.single (.copy _ hroom))
    · exact moves_send .refl

/-- An offered unicast command is a duplicate, discarded, or accepted with its places free (R126). -/
theorem moves_offerUnicast {s : State} (e : CommandEntry) (horigin : e.origin = .unicast) :
    Moves s (s.offerUnicast e) := by
  unfold State.offerUnicast
  split
  · exact moves_takeDuplicate s _
  · split_ifs with hqueue hplaces
    · exact moves_send .refl
    · exact moves_send .refl
    · refine moves_send (.single (.accept e _ horigin (Nat.not_le.mp hqueue) (Nat.not_le.mp hplaces) ?_))
      split
      · exact .inl rfl
      · exact .inr rfl

/-- An offered broadcast is ignored, discarded, or accepted with a place free (R130). -/
theorem moves_offerBroadcast {s : State} (e : CommandEntry) (horigin : e.origin = .broadcast) :
    Moves s (s.offerBroadcast e) := by
  unfold State.offerBroadcast
  split_ifs with htaken hqueue
  · exact moves_send .refl
  · exact moves_send .refl
  · exact moves_send (.single (.acceptBroadcast e horigin (Nat.not_le.mp hqueue)))

/-- Beginning a command is a run of moves when the command's own tests and effect are one. -/
theorem moves_beginsIf {s : State} (admits : CommandEntry → Bool) (own : CommandEntry → State)
    (hown : ∀ e, Moves s (own e)) : Moves s (s.beginsIf admits own) := by
  rcases beginsIf_cases s admits own with h | ⟨e, rest, -, -, -, -, ⟨status, words, -, h⟩ | ⟨-, h⟩⟩ <;> rw [h]
  · exact moves_complete .refl
  · exact hown e

theorem moves_edit (s : State) (change : Bank → Bank) (words : Bank → List Word) : Moves s (s.edit change words) := by
  rcases edit_cases s change words with ⟨-, h⟩ | ⟨-, h⟩ <;> rw [h]
  · exact moves_complete .refl
  · exact moves_complete (.single (.elsewhere rfl rfl rfl))

theorem moves_loadWindows (s : State) (e : CommandEntry) : Moves s (s.loadWindows e) := by
  unfold State.loadWindows
  simp only
  split_ifs
  · exact moves_complete .refl
  · exact moves_complete .refl
  · exact moves_complete .refl
  · exact moves_complete .refl
  · exact moves_edit s _ _

theorem moves_startStaged (s : State) (op : StagedOp) (x : Flight) (hx : ∀ g, x ≠ .resuming g) :
    Moves s (s.startStaged op x) := by
  unfold State.startStaged
  split
  · exact moves_complete .refl
  · have staged : Moves s { s with se := { s.se with stagedOp := op } } := .single (.elsewhere rfl rfl rfl)
    exact moves_fly staged hx

theorem moves_reportTooLate {s u : State} (h : Moves s u) (o : CommitOrder) : Moves s (u.reportTooLate o) := by
  unfold State.reportTooLate
  split
  · exact h
  · exact moves_send h

theorem moves_reportFailed {s u : State} (h : Moves s u) (o : CommitOrder) (item : Item) :
    Moves s (u.reportFailed o item) := by
  unfold State.reportFailed
  split
  · exact h
  · exact moves_send h

theorem moves_setCommit (s : State) (c : Commit) : Moves s (s.setCommit c) := .single (.elsewhere rfl rfl rfl)

theorem moves_startCommit (s : State) (o : CommitOrder) : Moves s (s.startCommit o) := by
  unfold State.startCommit
  split_ifs
  · exact moves_complete .refl
  · exact moves_complete .refl
  · exact moves_complete (moves_reportTooLate .refl o)
  · exact moves_fly (moves_setCommit s _) nofun

theorem moves_finishValidation (s : State) (o : CommitOrder) : Moves s (s.finishValidation o) := by
  unfold State.finishValidation
  split
  · exact moves_complete (moves_reportFailed (moves_setCommit s _) o _)
  · split
    · exact moves_complete (moves_reportTooLate (moves_setCommit s _) o)
    · exact moves_complete (moves_setCommit s _)

theorem moves_evaluate {s : State} {f : Frame} {rest : List Handed} (hhanded : s.rpu.handed = .sample :: rest)
    (hframe : inEvaluation s.rpu.forward = some f) : Moves s (s.evaluate f) := by
  obtain ⟨mu, onWay, lag, n, h⟩ := evaluate_eq s f
  rw [h]
  exact Moves.elsewhere (.single (.handBack (handedBackFrame s f) hhanded hframe)) rfl rfl rfl

/-! ### The requests of the CP -/

theorem moves_nextPause (s : State) : Moves s s.nextPause := .single (.elsewhere rfl rfl rfl)

theorem moves_dropCommit (s : State) : Moves s s.dropCommit := by
  unfold State.dropCommit
  split
  · exact moves_fly (.single (.elsewhere rfl rfl rfl)) nofun
  · exact moves_fly .refl nofun
  · exact moves_fly .refl nofun

theorem moves_replyDropped {s u : State} (h : Moves s u) : Moves s u.replyDropped := by
  unfold State.replyDropped
  split
  · exact moves_complete h
  · exact h

theorem moves_replyReleasing (s : State) : Moves s s.nextPause.replyReleasing :=
  moves_fly (moves_complete (moves_nextPause s)) nofun

/-- The requests of RESUME keep it in flight up to the one that builds the reply (R179). -/
theorem resumeStep_flight (s : State) (g : ResumeStep) (hg : g ≠ .reply) :
    ∃ g', (s.resumeStep g).cp.flight = .resuming g' := by
  cases g with
  | records => exact ⟨.mode, rfl⟩
  | mode => exact ⟨.reply, rfl⟩
  | reply => exact absurd rfl hg

/-- One request of a RESUME in flight (R179). -/
theorem moves_resumeStep {s : State} (g : ResumeStep) (hflight : ∃ g', s.cp.flight = .resuming g') :
    Moves s (s.resumeStep g) := by
  cases g with
  | records =>
    exact .tail (.single (.elsewhere (t := { s with se := s.se.clearRecords }) rfl rfl rfl))
      (.fly _ (fun _ _ => .inr hflight))
  | mode => exact .tail (.single (.run hflight)) (.fly _ (fun _ _ => .inr hflight))
  | reply => exact moves_complete .refl

/-- Requests of a RESUME in flight of which only the last may build the reply (R179). -/
theorem moves_foldl_resumeStep (l : List ResumeStep) (hl : .reply ∉ l.dropLast) {s : State}
    (hflight : ∃ g, s.cp.flight = .resuming g) : Moves s (l.foldl State.resumeStep s) := by
  induction l generalizing s with
  | nil => exact .refl
  | cons g rest ih =>
    cases rest with
    | nil => exact moves_resumeStep g hflight
    | cons g' rest =>
      rw [List.dropLast_cons_cons, List.mem_cons, not_or] at hl
      exact (moves_resumeStep g hflight).trans (ih hl.2 (resumeStep_flight s g (Ne.symm hl.1)))

/-- The reply is the last request of RESUME (R179). -/
theorem reply_notMem_dropLast_resumeSteps (next last : ResumeStep) : .reply ∉ (resumeSteps next last).dropLast := by
  cases next <;> cases last <;> decide

/-- One request of a RESET (R185, R186). -/
theorem moves_resetStep (s : State) (level : ResetLevel) (g : ResetStep) : Moves s (s.resetStep level g) := by
  cases g with
  | se => exact moves_fly (.single (.elsewhere (t := { s with se := .reset }) rfl rfl rfl)) nofun
  | iq =>
    cases level with
    | tables => exact moves_fly .refl nofun
    | all => exact moves_fly (.single (.keepPlaces (Nat.le_refl _) rfl)) nofun
  | rpu =>
    cases level with
    | tables => exact moves_fly .refl nofun
    | all =>
      have h := (moves_deliver (.refl (a := s))).tail .resetRpu
      rw [deliver_rpu] at h
      exact moves_fly h nofun
  | mu =>
    cases level with
    | tables => exact moves_fly .refl nofun
    | all =>
      have h : Moves s { s.deliver.acceptedBefore 0 with mu := .reset } :=
        .single (.elsewhere (by simp) (by simp) (by simp))
      exact moves_fly h nofun
  | reply => exact moves_complete .refl

/-! ### Every row -/

/-- The traffic of a port that is lost breaks off (R22, R33). -/
theorem moves_broken (s : State) (port : Port) :
    Moves s { s with rpu := ((s.rpu.setLink port .down).broken port).1 } := by
  have down : Moves s { s with rpu := s.rpu.setLink port .down } := by
    cases port <;> exact .single (.line rfl rfl rfl rfl rfl)
  refine down.trans ?_
  cases port with
  | inPort =>
    unfold Rpu.broken
    simp only
    split <;> exact .single (.line rfl rfl rfl rfl rfl)
  | outPort =>
    unfold Rpu.broken
    simp only
    split
    · exact .refl
    · next ha => exact .single (.leave (.inl ha))
    · exact .single .endSending

theorem moves_receiveCommand {s t : State} {f : Frame} (ht : execReceiveCommand f s = .next t) : Moves s t := by
  rcases execReceiveCommand_cases ht with rfl | ⟨-, valid, -, ⟨-, rfl⟩ | ⟨-, -, -, rfl⟩ | ⟨-, -, rfl⟩⟩
  · exact .refl
  · refine (moves_endReception s).trans ?_
    unfold State.takeUnicast
    split
    · exact moves_send .refl
    · exact moves_offerUnicast _ rfl
  · exact moves_ifRoom f _ (fun hroom => (moves_forwardReady f hroom).trans (moves_offerBroadcast _ rfl))
  · exact moves_ifRoom f _ (moves_forwardReady f)

/-- Every row is a run of moves. -/
theorem moves_of_exec {c : Instr} {s t : State} (ht : exec c s = .next t) : Moves s t := by
  cases c with
  | resetPinAsserted => cases ht; exact .single (.pin rfl rfl rfl)
  | resetPinReleased => cases ht; exact .single (.elsewhere rfl rfl rfl)
  | lineAcquired port =>
    have acquired : Moves s { s with rpu := s.rpu.acquired port } := by
      cases port <;> exact .single (.line rfl rfl rfl rfl rfl)
    rcases execLineAcquired_cases ht with rfl | ⟨-, -, rfl | rfl⟩
    · exact .refl
    · exact acquired.elsewhere rfl rfl rfl
    · exact moves_send acquired
  | lineLost port =>
    rcases execLineLost_cases ht with rfl | ⟨-, rfl⟩
    · exact .refl
    · exact moves_send (moves_broken s port)
  | rxAbort cause =>
    rcases execRxAbort_cases ht with rfl | ⟨-, r, rfl⟩
    · exact .refl
    · exact moves_send (.single (.line rfl rfl rfl rfl rfl))
  | receiveSample f =>
    rcases execReceiveSample_cases ht with rfl | ⟨-, ⟨-, rfl⟩ | ⟨-, rfl⟩⟩
    · exact .refl
    · exact moves_ifRoom f _ (fun hroom => (moves_deliver .refl).trans
        (moves_routeSample f (by rwa [deliver_rpu, endReception_rpu])))
    · exact moves_ifRoom f _ (moves_routeLost f)
  | receiveDamaged f =>
    rcases execReceiveDamaged_cases ht with rfl | ⟨-, -, rfl⟩
    · exact .refl
    · refine moves_ifRoom f _ (fun hroom => moves_send ?_)
      split
      · exact moves_routeLost f hroom
      · exact moves_forwardReady f hroom
  | receiveCommand f => exact moves_receiveCommand ht
  | receiveReply f =>
    rcases execReceiveReply_cases ht with rfl | ⟨-, rfl | rfl⟩
    · exact .refl
    · exact moves_send (moves_endReception s)
    · exact moves_ifRoom f _ (moves_forwardReady f)
  | receiveEnumerate f =>
    rcases execReceiveEnumerate_cases ht with rfl | ⟨-, -, rfl⟩
    · exact .refl
    · exact moves_ifRoom f _ (moves_routeEnumerate f)
  | receiveForeign f =>
    rcases execReceiveForeign_cases ht with rfl | ⟨-, ⟨-, rfl⟩ | ⟨-, rfl⟩⟩
    · exact .refl
    · exact moves_ifRoom f _ (fun hroom => moves_send (moves_forwardReady f hroom))
    · exact moves_ifRoom f _ (moves_forwardReady f)
  | sampleEvaluation =>
    rcases execSampleEvaluation_cases ht with rfl | ⟨-, f, rest, hhanded, hframe, rfl⟩
    · exact .refl
    · exact moves_evaluate hhanded hframe
  | lostSample =>
    rcases execLostSample_cases ht with rfl | ⟨-, rest, hhanded, rfl⟩
    · exact .refl
    · exact Moves.elsewhere (.single (.takeLost hhanded)) (by simp [State.takeLost]) (by simp [State.takeLost])
        (by simp [State.takeLost])
  | sendForwardBegin =>
    rcases execSendForwardBegin_cases ht with rfl | ⟨-, -, hhead, rfl⟩
    · exact .refl
    · exact .single (.sendHead hhead)
  | sendReplyBegin =>
    rcases execSendReplyBegin_cases ht with rfl | ⟨-, r, rest, hreplies, rfl⟩
    · exact .refl
    · exact .single (.sendReply hreplies)
  | frameForwarded =>
    rcases execFrameForwarded_cases ht with rfl | ⟨-, ha, rfl⟩
    · exact .refl
    · exact moves_send (.single (.leave (.inl ha)))
  | replySent =>
    rcases execReplySent_cases ht with rfl | ⟨-, rfl⟩
    · exact .refl
    · exact moves_send (.single .endSending)
  | outDiscard =>
    rcases execOutDiscard_cases ht with rfl | ⟨-, ha, hhead, rfl⟩
    · exact .refl
    · have h := Move.leave (.inr hhead)
      rw [← ha] at h
      exact moves_send (.single h)
  | replyExpired position =>
    rcases execReplyExpired_cases ht with rfl | ⟨-, r, l, -, rfl⟩
    · exact .refl
    · have fewer := List.length_eraseIdx_le (s.iq.age r.remaining).replies position
      rw [show (s.iq.age r.remaining).replies.length = s.iq.replies.length from List.length_map _] at fewer
      exact moves_send (.single (.keepPlaces fewer rfl))
  | identify => cases ht; exact moves_beginsIf _ _ (fun _ => moves_complete .refl)
  | readStatus => cases ht; exact moves_beginsIf _ _ (fun _ => moves_complete (moves_deliver .refl))
  | defineAxis => cases ht; exact moves_beginsIf _ _ (fun _ => moves_edit s _ _)
  | clearAxis => cases ht; exact moves_beginsIf _ _ (fun _ => moves_edit s _ _)
  | defineTrack => cases ht; exact moves_beginsIf _ _ (fun _ => moves_edit s _ _)
  | clearTrack => cases ht; exact moves_beginsIf _ _ (fun _ => moves_edit s _ _)
  | loadWindows => cases ht; exact moves_beginsIf _ _ (moves_loadWindows s)
  | stageCopy => cases ht; exact moves_beginsIf _ _ (fun _ => moves_startStaged s _ _ nofun)
  | stageClear => cases ht; exact moves_beginsIf _ _ (fun _ => moves_startStaged s _ _ nofun)
  | defineStatusSlot => cases ht; exact moves_beginsIf _ _ (fun _ => moves_edit s _ _)
  | commit => cases ht; exact moves_beginsIf _ _ (fun _ => moves_startCommit s _)
  | cancelCommit =>
    cases ht
    refine moves_beginsIf _ _ (fun _ => ?_)
    split
    · exact moves_complete (moves_setCommit s _)
    · exact moves_complete .refl
    · exact moves_complete .refl
  | readAxis => cases ht; exact moves_beginsIf _ _ (fun _ => moves_complete .refl)
  | readTrack => cases ht; exact moves_beginsIf _ _ (fun _ => moves_complete .refl)
  | readWindows =>
    cases ht
    refine moves_beginsIf _ _ (fun _ => ?_)
    simp only
    split <;> exact moves_complete .refl
  | readPool => cases ht; exact moves_beginsIf _ _ (fun _ => moves_complete .refl)
  | readFault =>
    cases ht
    exact moves_beginsIf _ _ (fun _ => moves_complete (.single (.elsewhere (by simp) (by simp) (by simp))))
  | clearFault =>
    cases ht
    exact moves_beginsIf _ _ (fun _ => moves_complete (.single (.elsewhere (by simp) (by simp) (by simp))))
  | readCounters =>
    cases ht
    refine moves_beginsIf _ _ (fun _ => ?_)
    split <;> exact moves_complete (.single (.elsewhere (by simp) (by simp) (by simp)))
  | setAttentionMask => cases ht; exact moves_beginsIf _ _ (fun _ => moves_complete (.single (.elsewhere rfl rfl rfl)))
  | ackAttention =>
    cases ht
    exact moves_beginsIf _ _ (fun _ => moves_complete (.single (.elsewhere (by simp) (by simp) (by simp))))
  | setReplyLifetime =>
    cases ht
    exact moves_beginsIf _ _ (fun _ => moves_complete (.single (.keepPlaces (Nat.le_refl _) rfl)))
  | bypass =>
    cases ht
    refine moves_beginsIf _ _ (fun _ => ?_)
    split
    · next hmode => exact moves_fly (.single (.bypass hmode)) nofun
    · exact moves_complete .refl
  | resume =>
    cases ht
    refine moves_beginsIf _ _ (fun _ => ?_)
    split
    · next hmode => exact .single (.fly _ (fun _ _ => .inl hmode))
    · exact moves_complete .refl
  | releaseAddress =>
    rcases execReleaseAddress_cases ht with ⟨-, -, rfl⟩ | rfl
    · exact .single .giveUp
    · refine moves_beginsIf _ _ (fun _ => ?_)
      split
      · exact moves_replyReleasing s
      · exact .tail (moves_replyReleasing s) .giveUp
  | resetTables => cases ht; exact moves_beginsIf _ _ (fun _ => moves_fly .refl nofun)
  | resetAll => cases ht; exact moves_beginsIf _ _ (fun _ => .single .resetCp)
  | unknownCommand => cases ht; exact moves_beginsIf _ _ (fun _ => .refl)
  | validationComplete =>
    rcases execValidationComplete_cases ht with rfl | ⟨-, -, o, -, rfl⟩
    · exact .refl
    · exact moves_finishValidation s o
  | copyComplete =>
    rcases execCopyComplete_cases ht with rfl | ⟨-, -, rfl⟩
    · exact .refl
    · exact moves_complete (.single (.elsewhere rfl rfl rfl))
  | clearComplete =>
    rcases execClearComplete_cases ht with rfl | ⟨-, -, rfl⟩
    · exact .refl
    · exact moves_complete (.single (.elsewhere rfl rfl rfl))
  | commitDrop =>
    rcases execCommitDrop_cases ht with rfl | ⟨-, ⟨-, rfl | rfl⟩ | ⟨-, rfl⟩⟩
    · exact .refl
    · exact (moves_nextPause s).trans (moves_dropCommit _)
    · exact moves_replyDropped ((moves_nextPause s).trans (moves_dropCommit _))
    · exact moves_replyDropped .refl
  | dynamicRecordClear last =>
    rcases execDynamicRecordClear_cases ht with rfl | ⟨-, next, hflight, rfl⟩
    · exact .refl
    · exact moves_foldl_resumeStep _ (reply_notMem_dropLast_resumeSteps next last) ⟨next, hflight⟩
  | seTableReset last =>
    rcases execSeTableReset_cases ht with rfl | ⟨-, level, next, -, rfl⟩
    · exact .refl
    · exact List.foldlRecOn (motive := Moves s) _ _ .refl (fun u hu g _ => hu.trans (moves_resetStep u level g))

/-- What goes on while no command waits is a run of moves (R22, R38; log entry 3). -/
theorem moves_idle (s : State) : Moves s s.idle := by
  have hd : Moves s s.deliver := moves_deliver .refl
  rcases pass_cases s.deliver with ⟨r, p, l, h⟩ | h <;> rw [State.idle, h]
  · exact Moves.elsewhere (.tail hd (.line (r := { s.deliver.rpu with receiving := r }) rfl rfl rfl rfl rfl))
      rfl rfl rfl
  · exact .tail hd (.keepPlaces (by simp [Iq.age]) rfl)

/-- Every step is a run of moves. -/
theorem moves_of_step {s t : State} (ht : step s = .next t) : Moves s t := by
  cases hp : s.pending with
  | nil =>
    rw [step, hp] at ht
    cases ht
    exact moves_idle s
  | cons c rest =>
    rw [step, hp] at ht
    exact .head (.elsewhere (t := { s with pending := rest }) rfl rfl rfl) (moves_of_exec ht)

/-- A law that every move keeps is kept by every step. -/
theorem law_of_step {P : State → Prop} (hP : ∀ s t, Move s t → P s → P t) {s t : State} (h : P s)
    (ht : step s = .next t) : P t := by
  have hm := moves_of_step ht
  clear ht
  induction hm with
  | refl => exact h
  | tail _ hmove ih => exact hP _ _ hmove ih

end Sys2Proof.Proofs

/-!
PROOFS. The laws of the queues, of forwarding and of the address: every move keeps them, so every step does.
-/
namespace Sys2Proof.Proofs

open Sys2Proof.Machine Sys2Proof.Claims

/-! ### The capacities of the queues (R29, R35, R124, R125, R131) -/

/-- The law depends on the lengths of the queues, the reservations and the commands queued alone. -/
theorem capacities_of_same {s t : State} (h : Safety.Capacities s) (hf : t.rpu.forward = s.rpu.forward)
    (hi : t.iq = s.iq) (hc : t.cp = s.cp) : Safety.Capacities t := by
  unfold Safety.Capacities
  rw [hf, hi, hc]
  exact h

/-- A frame joins the forward queue, which has a place. -/
theorem capacities_join {s : State} {r : Rpu} (x : ForwardEntry) (h : Safety.Capacities s)
    (hroom : s.rpu.forward.length < 2) (hr : r.forward = s.rpu.forward ++ [x]) :
    Safety.Capacities { s with rpu := r } := by
  refine ⟨?_, h.2⟩
  rw [hr, List.length_append]
  exact hroom

/-- The head leaves the forward queue. -/
theorem capacities_tail {s : State} {r : Rpu} (h : Safety.Capacities s) (hr : r.forward = s.rpu.forward.tail) :
    Safety.Capacities { s with rpu := r } := by
  refine ⟨?_, h.2⟩
  rw [hr, List.length_tail]
  exact (Nat.sub_le _ _).trans h.1

/-- The reply queue gets no longer, and the reservations stay. -/
theorem capacities_fewer {s : State} {q : Iq} (h : Safety.Capacities s)
    (hreplies : q.replies.length ≤ s.iq.replies.length) (hreserved : q.reserved = s.iq.reserved) :
    Safety.Capacities { s with iq := q } := by
  obtain ⟨hforward, hqueue, hplaces, hretry, hunicasts⟩ := h
  refine ⟨hforward, hqueue, ?_, hretry, hreserved.trans hunicasts⟩
  simp only [Iq.places] at hplaces ⊢
  omega

theorem unicasts_append (l : List CommandEntry) (e : CommandEntry) :
    unicasts (l ++ [e]) = unicasts l + if e.origin = .unicast then 1 else 0 := by
  simp [unicasts, List.countP_cons]

theorem unicasts_cons (e : CommandEntry) (l : List CommandEntry) :
    unicasts (e :: l) = unicasts l + if e.origin = .unicast then 1 else 0 := by
  simp [unicasts, List.countP_cons]

theorem dropOldestDone_length {table rest : List RetryEntry} (h : dropOldestDone table = some rest) :
    rest.length + 1 = table.length := by
  induction table generalizing rest with
  | nil => cases h
  | cons r l ih =>
    unfold dropOldestDone at h
    split at h
    · rw [← Option.some.inj h, List.length_cons]
    · obtain ⟨l', hl', rfl⟩ := Option.map_eq_some_iff.mp h
      rw [List.length_cons, List.length_cons, ih hl']

/-- An acceptance makes the retry table no longer than its four places (R131, R132). -/
theorem acceptTag_length_le {table : List RetryEntry} (source : Byte) (tag : Half) (h : table.length ≤ 4) :
    (acceptTag table source tag).length ≤ 4 := by
  unfold acceptTag
  simp only
  split_ifs with hsource hroom
  · have hfewer : (table.filter (fun r => r.source != source)).length < table.length := by
      rw [List.length_filter_lt_length_iff_exists]
      simpa using hsource
    rw [List.length_append]
    exact hfewer.trans_le h
  · rw [List.length_append]
    exact hroom
  · split
    · next l hl =>
      have hfewer : l.length + 1 = table.length := dropOldestDone_length hl
      rw [List.length_append]
      exact hfewer.trans_le h
    · exact h

/-- A unicast command is accepted with its reservation (R125, R126). -/
theorem capacities_accept {s : State} {e : CommandEntry} {retry : List RetryEntry} (h : Safety.Capacities s)
    (horigin : e.origin = .unicast) (hqueue : s.cp.queue.length < 4) (hplaces : s.iq.places < 6)
    (hretry : retry = s.cp.retry ∨ retry = acceptTag s.cp.retry e.source e.tagValue) :
    Safety.Capacities { s with
      cp := { s.cp with queue := s.cp.queue ++ [e], retry := retry }
      iq := { s.iq with reserved := s.iq.reserved + 1 } } := by
  obtain ⟨hforward, -, -, htable, hunicasts⟩ := h
  refine ⟨hforward, ?_, hplaces, ?_, ?_⟩
  · rw [List.length_append]
    exact hqueue
  · rcases hretry with rfl | rfl
    · exact htable
    · exact acceptTag_length_le _ _ htable
  · rw [unicasts_append, if_pos horigin, ← hunicasts]

/-- A broadcast is accepted without a reservation (R130). -/
theorem capacities_acceptBroadcast {s : State} {e : CommandEntry} (h : Safety.Capacities s)
    (horigin : e.origin = .broadcast) (hqueue : s.cp.queue.length < 4) :
    Safety.Capacities { s with cp := { s.cp with queue := s.cp.queue ++ [e] } } := by
  obtain ⟨hforward, -, hplaces, hretry, hunicasts⟩ := h
  refine ⟨hforward, ?_, hplaces, hretry, ?_⟩
  · rw [List.length_append]
    exact hqueue
  · rw [unicasts_append, if_neg (by simp [horigin]), ← hunicasts]
    rfl

theorem cacheReply_length (table : List RetryEntry) (e : CommandEntry) (behind : List CommandEntry) (reply : Frame) :
    (cacheReply table e behind reply).length = table.length := by
  unfold cacheReply
  split
  · rfl
  · exact List.length_map _

/-- A unicast command that completes turns its own reservation into a reply (R36, R136). -/
theorem capacities_complete {s : State} (status : Status) (words : List Word) (h : Safety.Capacities s) :
    Safety.Capacities (s.complete status words) := by
  cases hq : s.cp.queue with
  | nil => rwa [State.complete, hq]
  | cons e rest =>
    obtain ⟨hforward, hqueue, hplaces, hretry, hunicasts⟩ := h
    rw [hq, unicasts_cons] at hunicasts
    rw [hq, List.length_cons] at hqueue
    rw [complete_eq s e rest hq]
    cases horigin : e.origin with
    | broadcast => exact ⟨hforward, Nat.le_of_succ_le hqueue, hplaces, hretry, by simpa [horigin] using hunicasts⟩
    | unicast =>
      rw [if_pos horigin] at hunicasts
      refine ⟨hforward, Nat.le_of_succ_le hqueue, ?_, (cacheReply_length _ _ _ _).trans_le hretry, ?_⟩
      · simp only [Iq.places, Iq.joinReserved, List.length_append, List.length_singleton] at hplaces ⊢
        omega
      · show s.iq.reserved - 1 = unicasts rest
        omega

/-- RESET ALL keeps its own entry and reservation, and releases those of the commands behind it (R139). -/
theorem capacities_resetCp {s : State} (h : Safety.Capacities s) : Safety.Capacities s.resetCp := by
  obtain ⟨hforward, hqueue, hplaces, -, hunicasts⟩ := h
  refine ⟨hforward, ?_, ?_, Nat.zero_le _, ?_⟩
  · exact (List.length_take_le _ _).trans (by decide)
  · have := (Nat.le_add_left _ _).trans hplaces
    simp only [State.resetCp, Iq.places, List.length_nil]
    omega
  · show s.iq.reserved - unicasts (s.cp.queue.drop 1) = unicasts (s.cp.queue.take 1)
    have split : unicasts (s.cp.queue.take 1) + unicasts (s.cp.queue.drop 1) = unicasts s.cp.queue := by
      unfold unicasts
      rw [← List.countP_append, List.take_append_drop]
    omega

theorem capacities_of_move {s t : State} (hm : Move s t) (h : Safety.Capacities s) : Safety.Capacities t := by
  cases hm with
  | elsewhere hrpu hiq hcp => exact capacities_of_same h (by rw [hrpu]) hiq hcp
  | pin hrpu hiq hcp =>
    rw [Safety.Capacities, hrpu, hiq, hcp]
    decide
  | line hforward => exact capacities_of_same h hforward rfl rfl
  | join f hroom => exact capacities_join _ h hroom rfl
  | hand f hroom => exact capacities_join _ h hroom rfl
  | handBack g =>
    refine ⟨?_, h.2⟩
    rw [Rpu.handedBack, handBack_length]
    exact h.1
  | leave => exact capacities_tail h rfl
  | @sendReply _ rest hreplies =>
    have fewer : Safety.Capacities { s with iq := { s.iq with replies := rest } } :=
      capacities_fewer h (by simp [hreplies]) rfl
    exact fewer
  | keepPlaces hreplies hreserved => exact capacities_fewer h hreplies hreserved
  | copy f hroom =>
    obtain ⟨hforward, hqueue, -, hrest⟩ := h
    refine ⟨hforward, hqueue, ?_, hrest⟩
    simp only [Iq.places, Iq.joinCopy, List.length_append, List.length_singleton] at hroom ⊢
    omega
  | accept e retry horigin hqueue hplaces hretry => exact capacities_accept h horigin hqueue hplaces hretry
  | acceptBroadcast e horigin hqueue => exact capacities_acceptBroadcast h horigin hqueue
  | complete status words => exact capacities_complete status words h
  | resetCp => exact capacities_resetCp h
  | announce | takeLost | sendHead | endSending | takeAddress | bypass | run | giveUp | resetRpu | fly => exact h

/-- Settles O52: every move keeps the lengths within the places, and each reservation with its command. -/
theorem everyStepKeepsTheCapacities : Obligations.EveryStepKeepsTheCapacities :=
  fun _ _ => law_of_step (fun _ _ => capacities_of_move)

/-! ### The frames in evaluation and the frame being sent (R24, R29, R31) -/

/-- The number of frames handed to the SE that it has not taken. -/
def samplesHanded (l : List Handed) : Nat := l.countP (fun h => decide (h = .sample))

/-- The number of frames in evaluation. -/
def framesEvaluated (l : List ForwardEntry) : Nat := l.countP (fun x => decide (x.state = .inEvaluation))

theorem forwarding_iff (s : State) : Safety.Forwarding s ↔
    samplesHanded s.rpu.handed = framesEvaluated s.rpu.forward
      ∧ (s.rpu.arbiter = .sendingForward → s.rpu.readyHead.isSome = true) :=
  Iff.rfl

theorem samplesHanded_cons (x : Handed) (l : List Handed) :
    samplesHanded (x :: l) = samplesHanded l + if x = .sample then 1 else 0 := by
  simp [samplesHanded, List.countP_cons]

theorem samplesHanded_append (l : List Handed) (x : Handed) :
    samplesHanded (l ++ [x]) = samplesHanded l + if x = .sample then 1 else 0 := by
  simp [samplesHanded, List.countP_cons]

theorem framesEvaluated_cons (x : ForwardEntry) (l : List ForwardEntry) :
    framesEvaluated (x :: l) = framesEvaluated l + if x.state = .inEvaluation then 1 else 0 := by
  simp [framesEvaluated, List.countP_cons]

theorem framesEvaluated_append (l : List ForwardEntry) (x : ForwardEntry) :
    framesEvaluated (l ++ [x]) = framesEvaluated l + if x.state = .inEvaluation then 1 else 0 := by
  simp [framesEvaluated, List.countP_cons]

/-- A ready head is an entry that is ready (R29). -/
theorem readyHead_isSome_iff (r : Rpu) :
    r.readyHead.isSome = true ↔ ∃ x rest, r.forward = x :: rest ∧ x.state = .ready := by
  unfold Rpu.readyHead
  split
  · next f rest h => simp [h]
  · next h =>
    simp only [Option.isSome_none, Bool.false_eq_true, false_iff, not_exists, not_and]
    rintro ⟨f, x⟩ rest hforward rfl
    exact h f rest hforward

/-- A frame that joins the tail leaves a ready head in its place. -/
theorem readyHead_append {r q : Rpu} {x : ForwardEntry} (hq : q.forward = r.forward ++ [x])
    (h : r.readyHead.isSome = true) : q.readyHead.isSome = true := by
  rw [readyHead_isSome_iff] at h ⊢
  obtain ⟨y, rest, hr, hy⟩ := h
  exact ⟨y, rest ++ [x], by rw [hq, hr, List.cons_append], hy⟩

/-- The hand-back makes the first frame in evaluation ready, one frame fewer in evaluation (R24). -/
theorem framesEvaluated_handBack {l : List ForwardEntry} {f : Frame} (g : Frame) (h : inEvaluation l = some f) :
    framesEvaluated (handBack l g) + 1 = framesEvaluated l := by
  induction l with
  | nil => cases h
  | cons x rest ih =>
    cases hx : x.state with
    | inEvaluation => simp [handBack, framesEvaluated_cons, hx]
    | ready =>
      rw [inEvaluation, hx] at h
      simp [handBack, framesEvaluated_cons, hx, ih h]

/-- The hand-back leaves a ready head in its place (R24). -/
theorem readyHead_handedBack {r : Rpu} (g : Frame) (h : r.readyHead.isSome = true) :
    (r.handedBack g).readyHead.isSome = true := by
  rw [readyHead_isSome_iff] at h ⊢
  obtain ⟨x, rest, hr, hx⟩ := h
  exact ⟨x, handBack rest g, by simp [Rpu.handedBack, handBack, hr, hx], hx⟩

/-- The law depends on what is handed over, the forward queue and the arbiter alone. -/
theorem forwarding_of_same {s t : State} (h : Safety.Forwarding s) (hh : t.rpu.handed = s.rpu.handed)
    (hf : t.rpu.forward = s.rpu.forward) (ha : t.rpu.arbiter = s.rpu.arbiter) : Safety.Forwarding t := by
  unfold Safety.Forwarding Rpu.readyHead
  rw [hh, hf, ha]
  exact h

/-- A ready head that leaves is no frame in evaluation (R32, R33). -/
theorem framesEvaluated_tail {r : Rpu} (h : r.readyHead.isSome = true) :
    framesEvaluated r.forward.tail = framesEvaluated r.forward := by
  obtain ⟨x, rest, hr, hx⟩ := (readyHead_isSome_iff r).mp h
  simp [hr, framesEvaluated_cons, hx]

theorem forwarding_of_move {s t : State} (hm : Move s t) (h : Safety.Forwarding s) : Safety.Forwarding t := by
  cases hm with
  | elsewhere hrpu => exact forwarding_of_same h (by rw [hrpu]) (by rw [hrpu]) (by rw [hrpu])
  | pin hrpu =>
    rw [Safety.Forwarding, hrpu]
    exact ⟨rfl, nofun⟩
  | line hforward hhanded harbiter => exact forwarding_of_same h hhanded hforward harbiter
  | join f =>
    obtain ⟨hcount, hhead⟩ := (forwarding_iff s).mp h
    refine (forwarding_iff _).mpr ⟨?_, fun ha => readyHead_append rfl (hhead ha)⟩
    simp [Rpu.join, framesEvaluated_append, hcount]
  | hand f =>
    obtain ⟨hcount, hhead⟩ := (forwarding_iff s).mp h
    refine (forwarding_iff _).mpr ⟨?_, fun ha => readyHead_append rfl (hhead ha)⟩
    simp [Rpu.join, framesEvaluated_append, samplesHanded_append, hcount]
  | announce =>
    obtain ⟨hcount, hhead⟩ := (forwarding_iff s).mp h
    refine (forwarding_iff _).mpr ⟨?_, hhead⟩
    simp [samplesHanded_append, hcount]
  | takeLost hhanded =>
    obtain ⟨hcount, hhead⟩ := (forwarding_iff s).mp h
    refine (forwarding_iff _).mpr ⟨?_, hhead⟩
    simpa [hhanded, samplesHanded_cons] using hcount
  | handBack g hhanded hframe =>
    obtain ⟨hcount, hhead⟩ := (forwarding_iff s).mp h
    refine (forwarding_iff _).mpr ⟨?_, fun ha => readyHead_handedBack g (hhead ha)⟩
    have hback := framesEvaluated_handBack g hframe
    rw [hhanded, samplesHanded_cons, if_pos rfl, ← hback] at hcount
    show samplesHanded s.rpu.handed.tail = _
    rw [hhanded]
    exact Nat.add_right_cancel hcount
  | sendHead hhead => exact ⟨h.1, fun _ => hhead⟩
  | sendReply => exact ⟨h.1, nofun⟩
  | endSending => exact ⟨h.1, nofun⟩
  | leave hleaves =>
    obtain ⟨hcount, hhead⟩ := (forwarding_iff s).mp h
    exact (forwarding_iff _).mpr ⟨hcount.trans (framesEvaluated_tail (hleaves.elim hhead id)).symm, nofun⟩
  | complete => exact forwarding_of_same h (by rw [complete_rpu]) (by rw [complete_rpu]) (by rw [complete_rpu])
  | takeAddress | bypass | run | giveUp | resetRpu | keepPlaces | copy | accept | acceptBroadcast | fly | resetCp =>
    exact h

/-- Settles O53: a frame is handed over as it enters evaluation and taken as it becomes ready, and no move but the end
of its sending takes a ready head away. -/
theorem everyStepKeepsForwarding : Obligations.EveryStepKeepsForwarding :=
  fun _ _ => law_of_step (fun _ _ => forwarding_of_move)

/-! ### The address and the mode (R40, R172, R179) -/

/-- The law depends on the address, the mode and what is in flight alone. -/
theorem addressing_of_same {s t : State} (h : Safety.Addressing s) (ha : t.rpu.address = s.rpu.address)
    (hm : t.rpu.mode = s.rpu.mode) (hf : t.cp.flight = s.cp.flight) : Safety.Addressing t := by
  unfold Safety.Addressing
  rw [ha, hm, hf]
  exact h

/-- A command that completes is in flight no more; with an empty queue nothing completes (R136). -/
theorem complete_flight (s : State) (status : Status) (words : List Word) :
    (s.complete status words).cp.flight = .none ∨ (s.complete status words).cp.flight = s.cp.flight := by
  cases hq : s.cp.queue with
  | nil => exact .inr (by rw [State.complete, hq])
  | cons e rest =>
    rw [complete_eq s e rest hq]
    cases e.origin <;> exact .inl rfl

/-- The law holds with another flight when a RESUME in flight finds the part addressed. -/
theorem addressing_of_flight {s t : State} (h : Safety.Addressing s) (hr : t.rpu = s.rpu)
    (hf : ∀ g, t.cp.flight = .resuming g → s.rpu.mode ≠ .unaddressed) : Safety.Addressing t := by
  unfold Safety.Addressing
  rw [hr]
  exact ⟨h.1, h.2.1, hf⟩

/-- The law holds with another mode when neither is UNADDRESSED. -/
theorem addressing_of_mode {s t : State} (h : Safety.Addressing s) (ha : t.rpu.address = s.rpu.address)
    (hs : s.rpu.mode ≠ .unaddressed) (ht : t.rpu.mode ≠ .unaddressed) : Safety.Addressing t := by
  obtain ⟨hzero, hmax, -⟩ := h
  refine ⟨?_, ha ▸ hmax, fun _ _ => ht⟩
  rw [ha, hzero]
  exact iff_of_false hs ht

theorem addressing_of_move {s t : State} (hm : Move s t) (h : Safety.Addressing s) : Safety.Addressing t := by
  have ⟨_, _, hresume⟩ := h
  cases hm with
  | elsewhere hrpu _ hcp => exact addressing_of_same h (by rw [hrpu]) (by rw [hrpu]) (by rw [hcp])
  | pin hrpu _ hcp =>
    rw [Safety.Addressing, hrpu, hcp]
    exact ⟨by decide, by decide, nofun⟩
  | line _ _ _ haddress hmode => exact addressing_of_same h haddress hmode rfl
  | takeAddress a ha =>
    obtain ⟨hlow, hhigh⟩ : 1 ≤ a.toNat ∧ a.toNat ≤ 250 := by simpa [assignable] using ha
    refine ⟨iff_of_false ?_ nofun, hhigh, fun _ _ => nofun⟩
    rintro rfl
    exact absurd hlow (by decide)
  | bypass hmode => exact addressing_of_mode h rfl (by rw [hmode]; nofun) nofun
  | run hflight =>
    obtain ⟨g, hg⟩ := hflight
    exact addressing_of_mode h rfl (hresume g hg) nofun
  | giveUp => exact ⟨iff_of_true rfl rfl, Nat.zero_le _, nofun⟩
  | resetRpu =>
    cases hmode : s.rpu.mode with
    | unaddressed => exact addressing_of_same h rfl (by simp [Rpu.resetAll, hmode]) rfl
    | running => exact addressing_of_mode h rfl (by rw [hmode]; nofun) (by simp [Rpu.resetAll, hmode])
    | bypass => exact addressing_of_mode h rfl (by rw [hmode]; nofun) (by simp [Rpu.resetAll, hmode])
  | complete status words =>
    refine addressing_of_flight h (complete_rpu s status words) (fun g hg => ?_)
    rcases complete_flight s status words with hf | hf
    · rw [hf] at hg
      cases hg
    · exact hresume g (hf ▸ hg)
  | fly x hx =>
    refine addressing_of_flight h rfl (fun g hg => ?_)
    rcases hx g hg with hmode | ⟨g', hflight⟩
    · rw [hmode]
      nofun
    · exact hresume g' hflight
  | resetCp => exact addressing_of_flight h rfl nofun
  | join | hand | announce | takeLost | handBack | sendHead | sendReply | endSending | leave | keepPlaces | copy
  | accept | acceptBroadcast => exact h

/-- Settles O54: the address and UNADDRESSED change together, and a RESUME goes into flight in BYPASS only. -/
theorem everyStepKeepsAddressing : Obligations.EveryStepKeepsAddressing :=
  fun _ _ => law_of_step (fun _ _ => addressing_of_move)

end Sys2Proof.Proofs

/-!
PROOFS. What goes on at IN and while no command waits, and the routes of each class of frame.
-/
namespace Sys2Proof.Proofs

open Sys2Proof.Machine Sys2Proof.Claims

/-! ### The idle step (R22, R38; log entries 3 and 20) -/

/-- While a symbol stands on the line it arrives. -/
theorem pass_of_symbol {s : State} {x : LineSymbol} {rest : List LineSymbol} (h : s.line = x :: rest) :
    s.pass = State.arrive { s with line := rest } x := by
  rw [State.pass, h]

/-- With the line empty an overdue reply's expiry becomes pending. -/
theorem pass_of_overdue {s : State} {k : Nat} (h : s.line = []) (hk : s.iq.overdue = some k) :
    s.pass = { s with pending := s.pending ++ [.replyExpired k] } := by
  simp only [State.pass, h, hk]

/-- With the line empty and no reply overdue a millisecond passes. -/
theorem pass_of_quiet {s : State} (h : s.line = []) (hk : s.iq.overdue = none) :
    s.pass = { s with iq := s.iq.age 1 } := by
  simp only [State.pass, h, hk]

/-- The overdue reply is the first whose lifetime shows 0. -/
theorem overdue_eq_some {q : Iq} {k : Nat} {r : ReplyEntry} (hr : q.replies[k]? = some r) (h0 : r.remaining = 0)
    (hfirst : ∀ j x, j < k → q.replies[j]? = some x → x.remaining ≠ 0) : q.overdue = some k := by
  obtain ⟨hk, rfl⟩ := List.getElem?_eq_some_iff.mp hr
  refine List.findIdx?_eq_some_iff_getElem.mpr ⟨hk, by simpa using h0, fun j hj => ?_⟩
  simpa using hfirst j _ hj (List.getElem?_eq_getElem (hj.trans hk))

/-- No reply is overdue while every lifetime shows more than 0. -/
theorem overdue_eq_none {q : Iq} (h : ∀ r, r ∈ q.replies → r.remaining ≠ 0) : q.overdue = none :=
  List.findIdx?_eq_none_iff.mpr (fun r hr => by simpa using h r hr)

/-- With no command waiting the MU takes what it takes, then the rest goes on. -/
theorem step_of_nothing_pending {s : State} (h : s.pending = []) : step s = .next s.deliver.pass := by
  rw [step, h]
  rfl

/-! ### A symbol at IN (R22) -/

/-- While IN is DOWN or the pin is held the symbol is lost (log entry 17). -/
theorem arrive_of_closed {s : State} (x : LineSymbol) (h : s.resetHeld = true ∨ s.rpu.linkIn = .down) :
    s.arrive x = s :=
  if_pos (by simpa using h)

/-- Outside a frame only a start delimiter counts (log entry 17). -/
theorem arrive_of_none {s : State} (x : LineSymbol) (hheld : s.resetHeld = false) (hup : s.rpu.linkIn = .up)
    (hr : s.rpu.receiving = none) :
    s.arrive x = if x = .startDelimiter then { s with rpu := { s.rpu with receiving := some [] } } else s := by
  cases x <;> simp [State.arrive, hheld, hup, hr]

/-- Inside a frame each symbol has its effect. -/
theorem arrive_of_some {s : State} {bytes : List Byte} (x : LineSymbol) (hheld : s.resetHeld = false)
    (hup : s.rpu.linkIn = .up) (hr : s.rpu.receiving = some bytes) :
    s.arrive x = match x with
      | .startDelimiter => { s with pending := s.pending ++ [.rxAbort .secondStart] }
      | .data b =>
        if bytes.length < 1536 then { s with rpu := { s.rpu with receiving := some (bytes ++ [b]) } }
        else { s with pending := s.pending ++ [.rxAbort .tooLong] }
      | .broken => { s with pending := s.pending ++ [.rxAbort .brokenCode] }
      | .endDelimiter => { s.endReception with pending := s.pending ++ [receptionRow bytes] } := by
  cases x <;> simp [State.arrive, hheld, hup, hr, Config.receiveBytes]

/-- Settles O3: the idle step by what stands on the line and in the reply queue, a symbol by what is being received, and
the row of a frame by its class. -/
theorem idleStepGoesOn : Obligations.IdleStepGoesOn := by
  refine ⟨fun s hp => ?_, fun s x => ⟨arrive_of_closed x, arrive_of_none x, fun bytes hheld hup hr => ?_⟩,
    fun f => ?_⟩
  · rw [step_of_nothing_pending hp]
    refine ⟨fun x l hl => ?_, fun hl hnone => ?_, fun hl k r hr h0 hfirst => ?_⟩
    · rw [pass_of_symbol (by rw [deliver_line, hl])]
    · rw [pass_of_quiet (by rw [deliver_line, hl]) (by rw [deliver_iq, overdue_eq_none hnone]), deliver_iq]
      rfl
    · rw [pass_of_overdue (by rw [deliver_line, hl]) (by rw [deliver_iq, overdue_eq_some hr h0 hfirst]),
        deliver_pending, hp]
      rfl
  · rw [arrive_of_some x hheld hup hr]
    refine ⟨?_, ?_, ?_, ?_, ?_⟩
    · rintro b rfl hlen
      exact if_pos hlen
    · rintro b rfl hlen
      exact if_neg (Nat.not_lt.mpr hlen)
    · rintro rfl
      rfl
    · rintro rfl
      rfl
    · rintro rfl
      rfl
  · unfold receptionRow
    cases classify f with
    | enumerate valid => cases valid <;> rfl
    | _ => rfl

/-! ### Lines and aborted reception (R21, R22, R33) -/

/-- The first acquisition of a line since the reset pin sets the latch (R21, R183). -/
theorem exec_lineAcquired_first {s : State} {port : Port} (hheld : s.resetHeld = false)
    (hdown : s.rpu.link port = .down) (hstarts : s.rpu.starts port = true) :
    exec (.lineAcquired port) s = .next { s with rpu := s.rpu.acquired port, mu := s.mu.latch .linkChange } :=
  (if_neg (by simp [hheld, hdown])).trans (if_pos hstarts)

/-- A later acquisition of a line sends a report to the latch (R21, R183). -/
theorem exec_lineAcquired_again {s : State} {port : Port} (hheld : s.resetHeld = false)
    (hdown : s.rpu.link port = .down) (hstarts : s.rpu.starts port = false) :
    exec (.lineAcquired port) s
      = .next (State.send { s with rpu := s.rpu.acquired port } [[.latch .linkChange]]) :=
  (if_neg (by simp [hheld, hdown])).trans (if_neg (Bool.eq_false_iff.mp hstarts))

/-- LINE_LOST at a port that is UP (R21). -/
theorem exec_lineLost {s : State} {port : Port} (hheld : s.resetHeld = false) (hup : s.rpu.link port = .up) :
    exec (.lineLost port) s = .next (State.send { s with rpu := ((s.rpu.setLink port .down).broken port).1 }
      ([.latch .linkChange, .fault (linkDownReport port)] :: ((s.rpu.setLink port .down).broken port).2)) :=
  if_neg (by simp [hheld, hup])

/-- RX_ABORT while a frame is being received (R22). -/
theorem exec_rxAbort {s : State} {bytes : List Byte} (cause : AbortCause) (hheld : s.resetHeld = false)
    (hr : s.rpu.receiving = some bytes) :
    exec (.rxAbort cause) s = .next (State.send
      { s with rpu := { s.rpu with receiving := if cause = .secondStart then some [] else none } }
      [[.count .rxAborts]]) := by
  refine (if_neg (by simp [hheld, hr])).trans ?_
  cases cause <;> rfl

/-- A line that was acquired before stays marked so when it is acquired again (R183). -/
theorem acquired_again {r : Rpu} :
    (r.startIn = false → r.acquired .inPort = { r with linkIn := .up })
      ∧ (r.startOut = false → r.acquired .outPort = { r with linkOut := .up }) := by
  constructor
  · intro h
    rw [Rpu.acquired, ← h]
  · intro h
    rw [Rpu.acquired, ← h]

/-- A frame being received at IN is aborted and counted (R22). -/
theorem broken_inPort (r : Rpu) :
    (r.setLink .inPort .down).broken .inPort = ({ r with linkIn := .down, receiving := none },
      if r.receiving = none then [] else [[.count .rxAborts]]) := by
  cases hr : r.receiving <;> simp [Rpu.broken, Rpu.setLink, hr]

/-- Settles O10: a port that changes by whether its line starts, what breaks off by what the port was doing. -/
theorem lineChangesAndAbortsAreReported : Obligations.LineChangesAndAbortsAreReported := by
  refine ⟨fun s hheld => ⟨fun hd hs => ?_, fun hd hs => ?_, fun hd hs => ?_, fun hd hs => ?_, fun hu => ?_, fun hu => ?_⟩,
    fun s cause bytes hheld hr => exec_rxAbort cause hheld hr⟩
  · exact exec_lineAcquired_first (port := .inPort) hheld hd hs
  · rw [exec_lineAcquired_again (port := .inPort) hheld hd hs, acquired_again.1 hs]
  · exact exec_lineAcquired_first (port := .outPort) hheld hd hs
  · rw [exec_lineAcquired_again (port := .outPort) hheld hd hs, acquired_again.2 hs]
  · rw [exec_lineLost (port := .inPort) hheld hu, broken_inPort]
    rfl
  · refine ⟨_, rfl, ?_⟩
    rw [exec_lineLost (port := .outPort) hheld hu]
    cases ha : s.rpu.arbiter <;> simp [Rpu.broken, Rpu.setLink, ha, linkDownReport, portCode]

/-! ### The row of each class of frame (R23 to R28, R174) -/

theorem exec_receiveSample_valid {s : State} {f : Frame} (ha : Arrives s f) (hc : classify f = .sample true) :
    exec (.receiveSample f) s = .next (s.endReception.ifRoom f (fun t => t.deliver.routeSample f)) := by
  show execReceiveSample f s = _
  rw [execReceiveSample, if_pos (receives_of_arrives ha), hc]

theorem exec_receiveSample_malformed {s : State} {f : Frame} (ha : Arrives s f) (hc : classify f = .sample false) :
    exec (.receiveSample f) s = .next (s.endReception.ifRoom f (fun t => t.routeLost f)) := by
  show execReceiveSample f s = _
  rw [execReceiveSample, if_pos (receives_of_arrives ha), hc]

theorem exec_receiveDamaged {s : State} {f : Frame} (ha : Arrives s f) (hc : classify f = .damaged) :
    exec (.receiveDamaged f) s = .next (s.endReception.ifRoom f (fun t =>
      (if byteAt f 0 = 1#8 then t.routeLost f else t.forwardReady f).send [[.count .framesDamaged]])) := by
  show execReceiveDamaged f s = _
  rw [execReceiveDamaged, if_pos (receives_of_arrives ha), hc]

theorem unicastHere_of_not_toPart {s : State} {f : Frame} (h : ¬ ToPart s f) : s.unicastHere f = false := by
  rw [Bool.eq_false_iff]
  intro hhere
  simp only [State.unicastHere, Bool.and_eq_true, decide_eq_true_eq] at hhere
  exact h (and_assoc.mp hhere)

/-- A valid broadcast is forwarded and offered to the CP (R26). -/
theorem exec_receiveCommand_broadcast {s : State} {f : Frame} (ha : Arrives s f) (ht : ¬ ToPart s f)
    (hc : classify f = .command true) (hdest : byteAt f 1 = 255#8) :
    exec (.receiveCommand f) s = .next (s.endReception.ifRoom f (fun t =>
      (t.forwardReady f).offerBroadcast (entryOf f true .broadcast))) := by
  show execReceiveCommand f s = _
  rw [execReceiveCommand, if_pos (receives_of_arrives ha), hc]
  simp [unicastHere_of_not_toPart ht, hdest]

/-- A command for another station, and a malformed broadcast, are forwarded only (R26). -/
theorem exec_receiveCommand_passing {s : State} {f : Frame} {valid : Bool} (ha : Arrives s f) (ht : ¬ ToPart s f)
    (hc : classify f = .command valid) (hpass : valid = false ∨ byteAt f 1 ≠ 255#8) :
    exec (.receiveCommand f) s = .next (s.endReception.ifRoom f (fun t => t.forwardReady f)) := by
  show execReceiveCommand f s = _
  rw [execReceiveCommand, if_pos (receives_of_arrives ha), hc]
  rcases hpass with rfl | hdest
  · simp [unicastHere_of_not_toPart ht]
  · simp [unicastHere_of_not_toPart ht, hdest]

/-- The REPLY frame is one of the part's own that has come round the ring (R27). -/
def OwnReply (s : State) (f : Frame) (valid : Bool) : Prop :=
  valid = true ∧ byteAt f 2 = s.rpu.address ∧ s.rpu.address ≠ 0#8

theorem exec_receiveReply_own {s : State} {f : Frame} {valid : Bool} (ha : Arrives s f)
    (hc : classify f = .reply valid) (hown : OwnReply s f valid) :
    exec (.receiveReply f) s = .next (s.endReception.send [[.count .orphansRemoved]]) := by
  show execReceiveReply f s = _
  obtain ⟨rfl, hsource, haddress⟩ := hown
  rw [execReceiveReply, if_pos (receives_of_arrives ha), hc]
  simp [hsource, haddress]

theorem exec_receiveReply_other {s : State} {f : Frame} {valid : Bool} (ha : Arrives s f)
    (hc : classify f = .reply valid) (hother : ¬ OwnReply s f valid) :
    exec (.receiveReply f) s = .next (s.endReception.ifRoom f (fun t => t.forwardReady f)) := by
  show execReceiveReply f s = _
  rw [execReceiveReply, if_pos (receives_of_arrives ha), hc]
  refine if_neg (fun h => hother ?_)
  simp only [Bool.and_eq_true, decide_eq_true_eq] at h
  exact and_assoc.mp h

theorem exec_receiveEnumerate_valid {s : State} {f : Frame} (ha : Arrives s f) (hc : classify f = .enumerate true) :
    exec (.receiveEnumerate f) s = .next (s.endReception.ifRoom f (fun t => t.routeEnumerate f)) := by
  show execReceiveEnumerate f s = _
  rw [execReceiveEnumerate, if_pos (receives_of_arrives ha), hc]

theorem exec_receiveForeign_counted {s : State} {f : Frame} (ha : Arrives s f) (hc : classify f = .foreign) :
    exec (.receiveForeign f) s
      = .next (s.endReception.ifRoom f (fun t => (t.forwardReady f).send [[.count .framesForeign]])) := by
  show execReceiveForeign f s = _
  rw [execReceiveForeign, if_pos (receives_of_arrives ha), hc]

theorem exec_receiveForeign_uncounted {s : State} {f : Frame} (ha : Arrives s f)
    (hc : classify f = .noKind ∨ classify f = .enumerate false) :
    exec (.receiveForeign f) s = .next (s.endReception.ifRoom f (fun t => t.forwardReady f)) := by
  show execReceiveForeign f s = _
  rw [execReceiveForeign, if_pos (receives_of_arrives ha)]
  rcases hc with hc | hc <;> rw [hc]

/-- A frame that its row sends through the test of R30 meets that test whatever its class: the frames that do not are
unicast commands to the part and its own returning replies (R26, R27). -/
theorem exec_receptionRow {s : State} {f : Frame} (ha : Arrives s f)
    (hcommand : ∀ v, classify f = .command v → ¬ ToPart s f)
    (hreply : ¬ (classify f = .reply true ∧ byteAt f 2 = s.rpu.address ∧ s.rpu.address ≠ 0#8)) :
    ∃ routes, exec (receptionRow f) s = .next (s.endReception.ifRoom f routes) := by
  unfold receptionRow
  cases hc : classify f with
  | noKind => exact ⟨_, exec_receiveForeign_uncounted ha (.inl hc)⟩
  | damaged => exact ⟨_, exec_receiveDamaged ha hc⟩
  | sample valid =>
    cases valid with
    | true => exact ⟨_, exec_receiveSample_valid ha hc⟩
    | false => exact ⟨_, exec_receiveSample_malformed ha hc⟩
  | command valid =>
    by_cases hbroadcast : valid = true ∧ byteAt f 1 = 255#8
    · obtain ⟨rfl, hdest⟩ := hbroadcast
      exact ⟨_, exec_receiveCommand_broadcast ha (hcommand true hc) hc hdest⟩
    · exact ⟨_, exec_receiveCommand_passing ha (hcommand valid hc) hc (by simpa [imp_iff_not_or] using hbroadcast)⟩
  | reply valid =>
    refine ⟨_, exec_receiveReply_other ha hc ?_⟩
    rintro ⟨rfl, hown⟩
    exact hreply ⟨hc, hown⟩
  | enumerate valid =>
    cases valid with
    | true => exact ⟨_, exec_receiveEnumerate_valid ha hc⟩
    | false => exact ⟨_, exec_receiveForeign_uncounted ha (.inr hc)⟩
  | foreign => exact ⟨_, exec_receiveForeign_counted ha hc⟩

/-- Settles O11: the test of R30 comes before the routes, whichever the class makes them. -/
theorem fullForwardQueueDropsTheFrameWhole : Obligations.FullForwardQueueDropsTheFrameWhole := by
  intro s f ha hfull hcommand hreply
  obtain ⟨routes, h⟩ := exec_receptionRow ha hcommand hreply
  rw [h, State.ifRoom, if_pos (show Config.forwardPlaces ≤ s.endReception.rpu.forward.length from hfull)]
  rfl

/-! ### The routes of a SAMPLE frame (R24, R39, R41) -/

/-- The quiet count moves the hold counter (R39): a count of 0 lowers it by one, down to 0, another is taken. -/
theorem takeQuiet_hold (q : Iq) (quiet : Byte) :
    (q.takeQuiet quiet).hold.toNat = if quiet.toNat = 0 then q.hold.toNat - 1 else quiet.toNat := by
  have zero_iff (b : Byte) : b = 0#8 ↔ b.toNat = 0 := by simp [BitVec.toNat_eq]
  unfold Iq.takeQuiet
  simp only [zero_iff]
  split_ifs with hquiet hhold
  · simp [hhold]
  · have hone : 1#8 ≤ q.hold := BitVec.le_def.mpr (Nat.one_le_iff_ne_zero.mpr hhold)
    exact BitVec.toNat_sub_of_le hone
  · rfl

/-- Settles O12: the frame has a place, so its routes are taken, behind what the MU takes before. -/
theorem validSampleIsRecordedAndQueued : Obligations.ValidSampleIsRecordedAndQueued := by
  rintro s f u ha hroom hc rfl
  refine ⟨(s.iq.takeQuiet (quietOf f)).hold, takeQuiet_hold s.iq _, ?_⟩
  rw [exec_receiveSample_valid ha hc, ifRoom_of_hasRoom hroom]
  have hcycle : cycleOf f = byteAt f 2 ++ byteAt f 3 := halfAt_eq_append f 2
  rw [State.routeSample, deliver_rpu, deliver_iq, hcycle]
  rfl

/-! ### The routes of the other classes -/

/-- Settles O14: by the row of each class; what is not removed has a place in the forward queue. -/
theorem repliesAndUnknownFramesPass : Obligations.RepliesAndUnknownFramesPass := by
  refine ⟨fun s f valid ha hc => ⟨fun hv hsource haddress => ?_, fun hother hroom => ?_⟩,
    fun s f ha hroom => ⟨fun hc => ?_, fun hc => ?_⟩⟩
  · exact exec_receiveReply_own ha hc ⟨hv, hsource, haddress⟩
  · rw [exec_receiveReply_other ha hc, ifRoom_of_hasRoom hroom, forwardReady_endReception]
    rintro ⟨rfl, hsource, haddress⟩
    simp [hsource, haddress] at hother
  · rw [exec_receiveForeign_uncounted ha hc, ifRoom_of_hasRoom hroom, forwardReady_endReception]
  · rw [exec_receiveForeign_counted ha hc, ifRoom_of_hasRoom hroom, forwardReady_endReception]

/-- The code of a well-formed COMMAND frame is its byte 5 (Table 1-3). -/
theorem entryOf_codeValue {f : Frame} {origin : Origin} (hc : classify f = .command true) :
    (entryOf f true origin).codeValue = byteAt f 5 := by
  have hlen : 10 ≤ f.length := by
    unfold classify at hc
    split_ifs at hc
    have hok : commandLengthOk f = true := by simpa using hc
    obtain ⟨-, hl⟩ := (commandLengthOk_iff f).mp hok
    omega
  rw [CommandEntry.codeValue, entryOf, if_pos hlen]
  rfl

/-- The broadcasts taken are COMMIT, CANCEL_COMMIT and RESET with the one argument TABLES (R130 test 1). -/
theorem broadcastTaken_iff (e : CommandEntry) : e.broadcastTaken = true ↔
    e.codeValue = 0x20#8 ∨ e.codeValue = 0x21#8 ∨ (e.codeValue = 0x54#8 ∧ e.args = [0#32]) := by
  have names (c : Command) : e.command = some c ↔ e.codeValue = codeOf c := ofByte_eq_some_iff _ _
  change _ ↔ e.codeValue = codeOf .commit ∨ e.codeValue = codeOf .cancelCommit
    ∨ (e.codeValue = codeOf .reset ∧ e.args = [0#32])
  rw [← names, ← names, ← names]
  unfold CommandEntry.broadcastTaken
  split
  · next h => simp [h]
  · next h => simp [h]
  · next h => simp [h]
  · next hcommit hcancel hreset =>
    exact iff_of_false nofun (not_or.mpr ⟨hcommit, not_or.mpr ⟨hcancel, fun h => hreset h.1⟩⟩)

/-- Settles O18: a broadcast by what `offerBroadcast` makes of it, once it has its place in the forward queue. -/
theorem broadcastIsForwardedAndOffered : Obligations.BroadcastIsForwardedAndOffered := by
  rintro s f e ha hroom ht rfl
  refine ⟨fun hc hdest => ?_, fun v hc hpass => ?_⟩
  · rw [exec_receiveCommand_broadcast ha ht hc hdest, ifRoom_of_hasRoom hroom, forwardReady_endReception,
      State.offerBroadcast, entryOf_codeValue hc]
    have taken := broadcastTaken_iff (entryOf f true .broadcast)
    rw [entryOf_codeValue hc] at taken
    refine ⟨fun htaken => ⟨fun hqueue => ?_, fun hqueue => ?_⟩, fun hignored => ?_⟩
    · rw [taken.mpr htaken, if_neg (by simp)]
      exact congrArg _ (if_neg (Nat.not_le.mpr hqueue))
    · rw [taken.mpr htaken, if_neg (by simp)]
      exact congrArg _ (if_pos hqueue)
    · have hnot : (entryOf f true .broadcast).broadcastTaken = false := by
        rw [Bool.eq_false_iff, Ne, taken]
        simpa only [not_or] using hignored
      rw [hnot, if_pos (by simp)]
  · rw [exec_receiveCommand_passing ha ht hc hpass, ifRoom_of_hasRoom hroom, forwardReady_endReception]

end Sys2Proof.Proofs

/-!
PROOFS. The output arbiter and the expiry of replies.
-/
namespace Sys2Proof.Proofs

open Sys2Proof.Machine Sys2Proof.Claims

/-! ### The output arbiter (R31 to R33, R37) -/

/-- What SEND_FORWARD_BEGIN asks for: the IDLE arbiter, OUT UP, and a ready head (R31). -/
def MaySendForward (s : State) : Prop :=
  s.resetHeld = false ∧ s.rpu.arbiter = .idle ∧ s.rpu.linkOut = .up ∧ s.rpu.readyHead.isSome = true

theorem exec_sendForwardBegin_begins {s : State} (h : MaySendForward s) :
    exec .sendForwardBegin s = .next { s with rpu := { s.rpu with arbiter := .sendingForward } } := by
  obtain ⟨hheld, ha, hup, hhead⟩ := h
  exact if_pos (by simp [hheld, ha, hup, hhead])

theorem exec_sendForwardBegin_nothing {s : State} (h : ¬ MaySendForward s) : exec .sendForwardBegin s = .next s :=
  if_neg (by simpa [MaySendForward, and_assoc] using h)

/-- What SEND_REPLY_BEGIN asks for besides a reply: the IDLE arbiter, OUT UP, the forward queue empty and the hold
counter 0 (R31, R37). -/
def MaySendReply (s : State) : Prop :=
  s.resetHeld = false ∧ s.rpu.arbiter = .idle ∧ s.rpu.linkOut = .up ∧ s.rpu.forward = [] ∧ s.iq.hold = 0#8

/-- The head reply leaves the reply queue as its sending begins (R37). -/
theorem exec_sendReplyBegin_begins {s : State} {r : ReplyEntry} {rest : List ReplyEntry} (h : MaySendReply s)
    (hr : s.iq.replies = r :: rest) :
    exec .sendReplyBegin s = .next { s with
      rpu := { s.rpu with arbiter := .sendingReply r.frame }, iq := { s.iq with replies := rest } } := by
  obtain ⟨hheld, ha, hup, hforward, hhold⟩ := h
  refine (if_pos (by simp [hheld, ha, hup, hforward, hhold])).trans ?_
  rw [hr]

theorem exec_sendReplyBegin_nothing {s : State} (h : ¬ MaySendReply s ∨ s.iq.replies = []) :
    exec .sendReplyBegin s = .next s := by
  by_cases hmay : MaySendReply s
  · obtain ⟨hheld, ha, hup, hforward, hhold⟩ := hmay
    refine (if_pos (by simp [hheld, ha, hup, hforward, hhold])).trans ?_
    rw [h.resolve_left (not_not_intro ⟨hheld, ha, hup, hforward, hhold⟩)]
  · exact if_neg (by simpa [MaySendReply, and_assoc] using hmay)

/-- A frame that has left OUT leaves the forward queue (R32). -/
theorem exec_frameForwarded {s : State} (hheld : s.resetHeld = false) (ha : s.rpu.arbiter = .sendingForward) :
    exec .frameForwarded s = .next (State.send
      { s with rpu := { s.rpu with arbiter := .idle, forward := s.rpu.forward.tail } } [[.count .framesForwarded]]) :=
  if_pos (by simp [hheld, ha])

/-- A reply that has left OUT is counted (R32). -/
theorem exec_replySent {s : State} {f : Frame} (hheld : s.resetHeld = false)
    (ha : s.rpu.arbiter = .sendingReply f) :
    exec .replySent s
      = .next (State.send { s with rpu := { s.rpu with arbiter := .idle } } [[.count .repliesSent]]) := by
  refine (if_neg (by simp [hheld])).trans ?_
  rw [ha]

/-- While OUT is DOWN a ready head is discarded (R33). -/
theorem exec_outDiscard {s : State} (hheld : s.resetHeld = false) (ha : s.rpu.arbiter = .idle)
    (hdown : s.rpu.linkOut = .down) (hhead : s.rpu.readyHead.isSome = true) :
    exec .outDiscard s
      = .next (State.send { s with rpu := { s.rpu with forward := s.rpu.forward.tail } } [[.count .outDiscards]]) :=
  if_pos (by simp [hheld, ha, hdown, hhead])

/-- Settles O21: each row by whether the state admits it. -/
theorem arbiterSendsAndCounts : Obligations.ArbiterSendsAndCounts := by
  have head {s : State} {f : Frame} {l : List ForwardEntry}
      (h : s.rpu.forward = { frame := f, state := .ready } :: l) : s.rpu.readyHead.isSome = true :=
    (readyHead_isSome_iff s.rpu).mpr ⟨_, l, h, rfl⟩
  refine ⟨fun s hheld => ⟨fun f l ha hup hforward => ?_, fun r l ha hup hforward hhold hr => ?_, fun h => ?_,
    fun h => ?_⟩, fun s hheld => ⟨exec_frameForwarded hheld, fun f => exec_replySent hheld,
    fun f l ha hdown hforward => ?_⟩⟩
  · exact exec_sendForwardBegin_begins ⟨hheld, ha, hup, head hforward⟩
  · exact exec_sendReplyBegin_begins ⟨hheld, ha, hup, hforward, hhold⟩ hr
  · refine exec_sendReplyBegin_nothing (or_iff_not_imp_right.mpr fun hne => ?_)
    rintro ⟨-, ha, hup, hforward, hhold⟩
    simp [ha, hup, hforward, hhold, hne] at h
  · refine exec_sendForwardBegin_nothing ?_
    rintro ⟨-, ha, hup, hhead⟩
    rcases h with h | h | h
    · exact h ha
    · simp [hup] at h
    · simp [h] at hhead
  · rw [exec_outDiscard hheld ha hdown (head hforward), hforward]
    rfl

/-! ### The expiry of a reply (R38) -/

/-- Settles O22: the reply at the position leaves, and what its lifetime showed has passed for the others. -/
theorem expiredReplyIsRemovedAndReported : Obligations.ExpiredReplyIsRemovedAndReported := by
  intro s before after r hheld hr
  have hat : s.iq.replies[before.length]? = some r := by simp [hr]
  have hleft : (s.iq.age r.remaining).replies.eraseIdx before.length
      = (before ++ after).map (fun x => { x with remaining := x.remaining - r.remaining }) := by
    show (s.iq.replies.map _).eraseIdx _ = _
    rw [hr, List.map_append, List.map_append, List.eraseIdx_append_of_length_le (by simp)]
    simp
  show execReplyExpired _ s = _
  rw [execReplyExpired, if_neg (by simp [hheld]), hat]
  simp only [hleft]

end Sys2Proof.Proofs

/-!
PROOFS. Lifetime, the release of the address, and the resets block by block.
-/
namespace Sys2Proof.Proofs

open Sys2Proof.Machine Sys2Proof.Claims

/-! ### Commands that begin and complete (R134 to R136) -/

/-- The state with the command at the head completed, in the words of the statements. -/
theorem complete_eq_finished {s : State} {e : CommandEntry} {rest : List CommandEntry} (hq : s.cp.queue = e :: rest)
    (status : Status) (words : List Word) : s.complete status words = finished s e rest status words :=
  complete_eq s e rest hq status words

/-- What is in flight before a completion makes no difference to it. -/
theorem finished_setFlight (s : State) (x : Flight) (e : CommandEntry) (rest : List CommandEntry) (status : Status)
    (words : List Word) : finished (s.setFlight x) e rest status words = finished s e rest status words := by
  unfold finished
  cases e.origin <;> rfl

/-- While a command is in flight no other begins (R134). -/
theorem beginsIf_of_flight {s : State} (h : s.cp.flight ≠ .none) (admits : CommandEntry → Bool)
    (own : CommandEntry → State) : s.beginsIf admits own = s := by
  rcases beginsIf_cases s admits own with hs | ⟨-, -, -, -, hf, -⟩
  · exact hs
  · exact absurd hf h

/-- A command with a code, the number of arguments Table 7-1 gives for it, and each of them in range passes the general
refusals (R135). -/
theorem refusal_of_carries {e : CommandEntry} {c : Command} {args : List Word} (h : Carries e (codeOf c) args)
    (hcount : args.length ∈ countsOf (codeOf c)) (hrange : ∀ j, InRange (codeOf c) args j) :
    e.command = some c ∧ e.refusal = none := by
  obtain ⟨hm, hcode, rfl⟩ := h
  have hc : e.command = some c := (ofByte_eq_some_iff _ _).mpr (by rw [CommandEntry.codeValue, hcode]; rfl)
  exact ⟨hc, (refusal_eq_none_iff e c hc).mpr ⟨hm, (countOk_iff c _).mpr hcount, hrange⟩⟩

/-- A command that passes the general refusals is carried out by its row (R134, R135). -/
theorem begins_of_carries {s : State} {e : CommandEntry} {rest : List CommandEntry} {c : Command} {args : List Word}
    (hb : Begins s e rest) (h : Carries e (codeOf c) args) (hcount : args.length ∈ countsOf (codeOf c))
    (hrange : ∀ j, InRange (codeOf c) args j) (own : CommandEntry → State) : s.begins c own = own e := by
  obtain ⟨hheld, hq, hf⟩ := hb
  obtain ⟨hc, hr⟩ := refusal_of_carries h hcount hrange
  exact beginsIf_own s e rest _ own hheld hq hf (decide_eq_true hc) hr

/-- The only argument word of a command is in range when its value is. -/
theorem inRange_single {code : Byte} {w : Word} {low high : Nat} (hr : rangesOf code [w] = [(low, high)])
    (hlow : low ≤ w.toNat) (hhigh : w.toNat ≤ high) (j : Nat) : InRange code [w] j := by
  intro x r hx hxr
  rw [hr] at hxr
  cases j with
  | zero =>
    obtain rfl : w = x := Option.some.inj hx
    obtain rfl : (low, high) = r := Option.some.inj hxr
    exact ⟨hlow, hhigh⟩
  | succ j => cases hx

/-- A command without argument words has none out of range. -/
theorem inRange_nil (code : Byte) (j : Nat) : InRange code [] j := nofun

/-- Every row of a command but RELEASE_ADDRESS only begins it, whatever the state (R134). -/
theorem exec_row_eq_beginsIf {code : Byte} {row : Instr} (hrow : row ∈ rowOf code) (hne : row ≠ .releaseAddress)
    (s : State) : ∃ admits own, exec row s = .next (s.beginsIf admits own) := by
  cases hc : Command.ofByte code with
  | none =>
    rw [rowOf_of_unknown code hc] at hrow
    obtain rfl := List.mem_singleton.mp hrow
    exact ⟨_, _, rfl⟩
  | some c =>
    rw [(ofByte_eq_some_iff code c).mp hc] at hrow
    cases c
    case releaseAddress => exact absurd (List.mem_singleton.mp hrow) hne
    case reset =>
      have hrow : row = .resetTables ∨ row = .resetAll := by simpa [rowOf, codeOf] using hrow
      rcases hrow with rfl | rfl <;> exact ⟨_, _, rfl⟩
    all_goals
      obtain rfl := List.mem_singleton.mp hrow
      exact ⟨_, _, rfl⟩

/-! ### SET_REPLY_LIFETIME and RELEASE_ADDRESS (R167, R180) -/

theorem numWord_byte (b : Byte) : (numWord b.toNat).toNat = b.toNat := by
  have := b.isLt
  rw [numWord, BitVec.toNat_ofNat]
  omega

/-- SET_REPLY_LIFETIME sets the lifetime before it completes (R167). -/
theorem exec_setReplyLifetime {s : State} {e : CommandEntry} {rest : List CommandEntry} {ms : Byte}
    (hb : Begins s e rest) (hms : 1 ≤ ms.toNat) (hc : Carries e 0x50#8 [numWord ms.toNat]) :
    exec .setReplyLifetime s = .next (finished { s with iq := { s.iq with lifetime := ms } } e rest .ok
      [numWord s.iq.lifetime.toNat]) := by
  have hmax := ms.isLt
  have hrange := inRange_single (code := codeOf .setReplyLifetime) (w := numWord ms.toNat) rfl
    (by rwa [numWord_byte]) (by rw [numWord_byte]; omega)
  have ⟨_, _, hargs⟩ := hc
  have hnew : BitVec.ofNat 8 (e.num 0) = ms := by
    rw [CommandEntry.num, CommandEntry.arg, hargs]
    exact (congrArg (BitVec.ofNat 8) (numWord_byte ms)).trans (by simp)
  have hcount : [numWord ms.toNat].length ∈ countsOf (codeOf .setReplyLifetime) := List.mem_singleton.mpr rfl
  refine (congrArg _ (begins_of_carries (c := .setReplyLifetime) hb hc hcount hrange _)).trans ?_
  have ⟨_, hq, _⟩ := hb
  rw [hnew]
  refine congrArg _ (complete_eq_finished ?_ _ _)
  exact hq

/-- A row of two requests ends behind the first exactly when the next entry of `pauses` says so (log entry 7). -/
theorem pausing_iff (s : State) : s.pausing = true ↔ s.pauses.head? = some true := by
  rw [State.pausing]
  cases s.pauses <;> simp

/-- RELEASE_ADDRESS takes its first request alone or both, as `pauses` says (R180; log entry 7). -/
theorem exec_releaseAddress {s : State} {e : CommandEntry} {rest : List CommandEntry} (hb : Begins s e rest)
    (hc : Carries e 0x53#8 []) :
    exec .releaseAddress s = .next (if s.pausing then (finished s.nextPause e rest .ok []).setFlight .releasing
      else ((finished s.nextPause e rest .ok []).setFlight .releasing).giveUpAddress) := by
  have ⟨_, hq, hf⟩ := hb
  have own := begins_of_carries (c := .releaseAddress) hb hc (by decide) (inRange_nil _)
  have hreply : s.nextPause.replyReleasing = (finished s.nextPause e rest .ok []).setFlight .releasing := by
    refine congrArg (fun u : State => u.setFlight .releasing) (complete_eq_finished ?_ _ _)
    exact hq
  show execReleaseAddress s = _
  rw [execReleaseAddress_begins s hf, own, hreply]

/-- The second request of a RELEASE_ADDRESS whose reply is built (R180). -/
theorem exec_releaseAddress_releasing {s : State} (hheld : s.resetHeld = false) (hf : s.cp.flight = .releasing) :
    exec .releaseAddress s = .next s.giveUpAddress :=
  if_pos (by simp [hheld, hf])

/-- Settles O37: by what the two commands do once they begin; between the requests of a release nothing begins. -/
theorem lifetimeIsSetAndAddressReleased : Obligations.LifetimeIsSetAndAddressReleased := by
  refine ⟨fun s e rest ms => exec_setReplyLifetime, fun s e rest hb hc => ⟨fun hp => ?_, fun hp => ?_⟩,
    fun s hheld hf => ⟨exec_releaseAddress_releasing hheld hf, fun code row hrow hne => ?_⟩⟩
  · rw [exec_releaseAddress hb hc, if_pos ((pausing_iff s).mpr hp)]
    unfold finished
    cases e.origin <;> rfl
  · rw [exec_releaseAddress hb hc, if_neg (mt (pausing_iff s).mp hp)]
    unfold finished
    cases e.origin <;> rfl
  · obtain ⟨admits, own, h⟩ := exec_row_eq_beginsIf hrow hne s
    rw [h, beginsIf_of_flight (by rw [hf]; nofun)]

/-! ### RESET, request by request (R185, R186) -/

/-- The requests of a RESET in flight that one SE_TABLE_RESET takes. -/
theorem exec_seTableReset {s : State} {e : CommandEntry} {rest : List CommandEntry} {level : ResetLevel}
    {next : ResetStep} (h : Waits s e rest (.resetting level next)) (last : ResetStep) :
    exec (.seTableReset last) s = .next ((resetSteps next last).foldl (State.resetStep level) s) := by
  obtain ⟨hheld, -, hf⟩ := h
  show execSeTableReset last s = _
  rw [execSeTableReset, if_neg (by simp [hheld]), hf]

/-- A RESET at a level begins in the row of the level (R171). -/
theorem beginsIf_of_reset {s : State} {e : CommandEntry} {rest : List CommandEntry} (level : ResetLevel)
    (hb : Begins s e rest) (hc : Carries e 0x54#8 [numWord level.code]) (own : CommandEntry → State) :
    s.beginsIf (fun e => e.resetsAt level) own = own e := by
  obtain ⟨hheld, hq, hf⟩ := hb
  have hlevel : (numWord level.code).toNat = level.code := by cases level <;> rfl
  have hrange := inRange_single (code := codeOf .reset) (w := numWord level.code) rfl (Nat.zero_le _)
    (by rw [hlevel]; cases level <;> decide)
  obtain ⟨hcommand, hr⟩ := refusal_of_carries (c := .reset) hc (by cases level <;> decide) hrange
  obtain ⟨-, -, hargs⟩ := hc
  refine beginsIf_own s e rest _ own hheld hq hf ?_ hr
  have hnum : e.num 0 = level.code := by rw [CommandEntry.num, CommandEntry.arg, hargs]; exact hlevel
  simp [CommandEntry.resetsAt, hcommand, hnum]

/-- The last cycle seen is forgotten, and BYPASS is left for RUNNING (R186 step 4). -/
theorem resetAll_eq (r : Rpu) :
    r.resetAll = { r with lastCycle := none, mode := if r.mode = .bypass then .running else r.mode } := by
  unfold Rpu.resetAll
  cases r.mode <;> rfl

/-- The commands behind the head hold the reservations that RESET ALL releases (R139). -/
theorem resetCp_eq {s : State} {e : CommandEntry} {rest : List CommandEntry} (hq : s.cp.queue = e :: rest) :
    s.resetCp = { s with
      cp := { queue := [e], retry := [], flight := .resetting .all .se }
      iq := { s.iq with
        replies := []
        reserved := s.iq.reserved - (rest.filter (fun o => decide (o.origin = .unicast))).length } } := by
  simp only [State.resetCp, hq, List.take_succ_cons, List.take_zero, List.drop_succ_cons, List.drop_zero, unicasts,
    List.countP_eq_length_filter]

/-- The IQ's settings after RESET ALL (R43). -/
def resetSettings (q : Iq) : Iq := { q with lifetime := 20#8, hold := 0#8 }

/-- What is on its way once the increments of accepted commands have been taken (R171). -/
def withoutAcceptances (l : List Event) : List Event :=
  l.filter (fun e => decide (e.notices ≠ [.count .commandsAccepted]))

theorem acceptances_withoutAcceptances (l : List Event) : acceptances (withoutAcceptances l) = 0 := by
  rw [acceptances, List.countP_eq_zero]
  intro e he
  simpa using (List.mem_filter.mp he).2

/-- The MU's request of RESET ALL leaves no increment of an accepted command on its way (R171, R186). -/
theorem resetStep_all_mu (s : State) :
    s.resetStep .all .mu = { s.deliver with
      mu := .reset
      onWay := withoutAcceptances s.deliver.onWay
      cp := { s.cp with flight := .resetting .all .reply } } := by
  obtain ⟨mu, h⟩ := acceptedBefore_zero s.deliver
  have hkept : s.deliver.onWay.filter (fun e => !e.isAcceptance) = withoutAcceptances s.deliver.onWay := by
    refine List.filter_congr (fun e _ => ?_)
    simp [Event.isAcceptance]
  show State.setFlight { s.deliver.acceptedBefore 0 with mu := .reset } _ = _
  rw [h, hkept, State.setFlight, deliver_cp]

/-- The RPU's request of RESET ALL (R186 step 4). -/
theorem resetStep_all_rpu (s : State) :
    s.resetStep .all .rpu = { s.deliver with
      rpu := s.rpu.resetAll
      cp := { s.cp with flight := .resetting .all .mu } } := by
  show State.setFlight { s.deliver with rpu := s.rpu.resetAll } _ = _
  rw [State.setFlight, deliver_cp]

/-- With nothing on its way the taking of notices leaves `lag` and the choices as they are (log entry 20). -/
theorem deliver_changes (s : State) :
    ∃ mu onWay lag n, s.deliver = { s with mu := mu, onWay := onWay, lag := lag, choices := n }
      ∧ (s.onWay = [] → onWay = [] ∧ lag = s.lag ∧ n = s.choices) := by
  by_cases h : s.onWay = []
  · exact ⟨s.mu, s.onWay, s.lag, s.choices, deliver_of_nothing_on_way s h, fun _ => ⟨h, rfl, rfl⟩⟩
  · obtain ⟨mu, onWay, lag, n, hd⟩ := deliver_eq s
    exact ⟨mu, onWay, lag, n, hd, fun h' => absurd h' h⟩

/-- All requests of RESET ALL but the reply, one behind the other (R186). -/
theorem foldl_resetStep_all (s : State) :
    ∃ w l n, (s.onWay = [] → w = [] ∧ l = s.lag ∧ n = s.choices) ∧ acceptances w = 0
      ∧ [ResetStep.se, .iq, .rpu, .mu].foldl (State.resetStep .all) s = State.setFlight
        { s with
          se := .reset, mu := .reset, onWay := w, lag := l, choices := n
          iq := resetSettings s.iq, rpu := s.rpu.resetAll } (.resetting .all .reply) := by
  obtain ⟨mu, onWay, lag, n, hrpu, hnone⟩ := deliver_changes
    (State.setFlight { s with se := .reset, iq := resetSettings s.iq } (.resetting .all .rpu))
  obtain ⟨mu', onWay', lag', n', hmu, hnone'⟩ := deliver_changes
    (State.setFlight { s with
      se := .reset, mu := mu, onWay := onWay, lag := lag, choices := n
      iq := resetSettings s.iq, rpu := s.rpu.resetAll } (.resetting .all .mu))
  refine ⟨withoutAcceptances onWay', lag', n', fun h => ?_, acceptances_withoutAcceptances _, ?_⟩
  · obtain ⟨rfl, rfl, rfl⟩ := hnone h
    obtain ⟨rfl, rfl, rfl⟩ := hnone' rfl
    exact ⟨rfl, rfl, rfl⟩
  · show ((State.setFlight { s with se := .reset, iq := resetSettings s.iq } (.resetting .all .rpu)).resetStep
      .all .rpu).resetStep .all .mu = _
    rw [resetStep_all_rpu, hrpu, resetStep_all_mu]
    exact congrArg (fun u : State => { u with
      mu := .reset
      onWay := withoutAcceptances u.onWay
      cp := { s.cp with flight := .resetting .all .reply } }) hmu

/-- Settles O39: each row of a RESET by the requests it takes. -/
theorem resetsGoBlockByBlock : Obligations.ResetsGoBlockByBlock := by
  refine ⟨fun s e rest => ⟨fun hb hc => ?_, fun hw => ⟨?_, ?_⟩⟩,
    fun s e rest => ⟨fun hb hc => ?_, fun hw => ?_, fun hw => ?_, fun hw => ?_, fun hw => ?_, fun hw => ?_,
      fun hw => ?_⟩⟩
  · exact congrArg _ (beginsIf_of_reset .tables hb hc _)
  · rw [exec_seTableReset hw]
    rfl
  · have ⟨_, hq, _⟩ := hw
    rw [exec_seTableReset hw]
    show Host.Outcome.next (State.complete (State.setFlight { s with se := .reset } (.resetting .tables .reply))
      .ok [0#32]) = _
    refine congrArg _ ((complete_eq_finished ?_ _ _).trans (finished_setFlight _ _ _ _ _ _))
    exact hq
  · have ⟨_, hq, _⟩ := hb
    rw [← resetCp_eq hq]
    exact congrArg _ (beginsIf_of_reset .all hb hc _)
  · rw [exec_seTableReset hw]
    rfl
  · rw [exec_seTableReset hw]
    rfl
  · rw [exec_seTableReset hw]
    show Host.Outcome.next (s.resetStep .all .rpu) = _
    rw [resetStep_all_rpu, resetAll_eq]
  · rw [exec_seTableReset hw]
    exact congrArg _ (resetStep_all_mu s)
  · have ⟨_, hq, _⟩ := hw
    rw [exec_seTableReset hw]
    exact congrArg _ (complete_eq_finished hq _ _)
  · have ⟨_, hq, _⟩ := hw
    obtain ⟨w, l, n, hnone, hacceptances, hfold⟩ := foldl_resetStep_all s
    refine ⟨w, l, n, hnone, hacceptances, ?_⟩
    rw [exec_seTableReset hw]
    show Host.Outcome.next (State.complete ([ResetStep.se, .iq, .rpu, .mu].foldl (State.resetStep .all) s)
      .ok [1#32]) = _
    rw [hfold, resetAll_eq]
    refine congrArg _ ((complete_eq_finished ?_ _ _).trans (finished_setFlight _ _ _ _ _ _))
    exact hq

end Sys2Proof.Proofs

/-!
PROOFS. What the MU makes of the notices it is sent, and the taking of a lost sample by the SE.
-/
namespace Sys2Proof.Proofs

open Sys2Proof.Machine Sys2Proof.Claims

/-! ### Every notice sent is taken once or still on its way (R190, R193; log entry 20) -/

/-- The notices of an event once one of them is taken are the others. -/
theorem flatMap_notices_without (e : Event) (j : Nat) :
    (e.without j).flatMap Event.notices = e.notices.eraseIdx j := by
  unfold Event.without
  split
  · next h => exact h.symm
  · next h => simp [h]

/-- The notice picked and those left are all that were on their way. -/
theorem pickNotice_perm {l rest : List Event} {n : Nat} {x : Notice} (h : pickNotice l n = some (x, rest)) :
    (x :: rest.flatMap Event.notices).Perm (l.flatMap Event.notices) := by
  induction l generalizing n rest with
  | nil => cases h
  | cons e l ih =>
    rw [List.flatMap_cons]
    unfold pickNotice at h
    split at h
    · next y hy =>
      obtain ⟨rfl, rfl⟩ := Prod.mk.inj (Option.some.inj h)
      obtain ⟨hn, rfl⟩ := List.getElem?_eq_some_iff.mp hy
      rw [List.flatMap_append, flatMap_notices_without]
      exact (List.getElem_cons_eraseIdx_perm hn).append_right _
    · obtain ⟨⟨y, rest'⟩, hp, heq⟩ := Option.map_eq_some_iff.mp h
      obtain ⟨rfl, rfl⟩ := Prod.mk.inj heq
      rw [List.flatMap_cons]
      exact List.perm_middle.symm.trans ((ih hp).append_left _)

/-- Each notice on its way is taken once, in some order, or is still on its way; with nothing to hold the MU back all
are taken. -/
theorem deliverBy_taken (lag : List Nat) (s : State) :
    ∃ taken : List Notice, (s.deliverBy lag).mu = taken.foldl (fun m n => m.take s.rpu.lastCycle n) s.mu
      ∧ (taken ++ (s.deliverBy lag).onWay.flatMap Event.notices).Perm (s.onWay.flatMap Event.notices)
      ∧ (lag = [] → (s.deliverBy lag).onWay = []) := by
  induction lag generalizing s with
  | nil =>
    by_cases hw : s.onWay = []
    · exact ⟨[], by simp [State.deliverBy, hw], by simp [State.deliverBy, hw], by simp [State.deliverBy, hw]⟩
    · obtain ⟨order, hp, n, h⟩ := takeAll_order { s with onWay := [], lag := [] } (s.onWay.flatMap Event.notices)
      have hd : s.deliverBy [] = _ := (if_neg hw).trans h
      rw [hd]
      exact ⟨order, rfl, by simpa using hp, fun _ => rfl⟩
  | cons k rest ih =>
    by_cases hw : s.onWay = []
    · exact ⟨[], by simp [State.deliverBy, hw], by simp [State.deliverBy, hw], by simp⟩
    · cases hp : pickNotice s.onWay k with
      | none =>
        have hd : s.deliverBy (k :: rest) = { s with lag := rest } := by simp [State.deliverBy, hw, hp]
        rw [hd]
        exact ⟨[], rfl, .refl _, nofun⟩
      | some p =>
        obtain ⟨x, l⟩ := p
        have hd : s.deliverBy (k :: rest)
            = State.deliverBy rest { s with mu := s.mu.take s.rpu.lastCycle x, onWay := l } := by
          simp [State.deliverBy, hw, hp]
        obtain ⟨taken, hmu, hperm, -⟩ := ih { s with mu := s.mu.take s.rpu.lastCycle x, onWay := l }
        rw [hd]
        exact ⟨x :: taken, hmu, (hperm.cons x).trans (pickNotice_perm hp), nofun⟩

/-- What is sent out is told to the MU, outside the reset pin (R190, R193). -/
theorem tells_sendEvents {s : State} (hheld : s.resetHeld = false) (l : List Event) :
    Tells s (s.sendEvents l) (l.flatMap Event.notices) := by
  obtain ⟨taken, hmu, hperm, hnone⟩ := deliverBy_taken s.lag { s with onWay := s.onWay ++ l }
  have hd : s.sendEvents l = State.deliverBy s.lag { s with onWay := s.onWay ++ l } :=
    if_neg (by simp [hheld])
  rw [hd]
  exact ⟨taken, hmu, by simpa only [List.flatMap_append] using hperm, hnone⟩

/-- What is sent is told to the MU, event by event (R193). -/
theorem tells_send {s : State} (hheld : s.resetHeld = false) (l : List (List Notice)) :
    Tells s (s.send l) l.flatten := by
  have htold : (l.map Event.whole).flatMap Event.notices = l.flatten := by
    rw [List.flatMap_map, List.flatMap_def]
    exact congrArg List.flatten (List.map_id l)
  exact htold ▸ tells_sendEvents hheld _

/-! ### What the MU makes of notices one behind the other (R189, R192, R195) -/

/-- The mask is no report's business (R197). -/
theorem foldl_take_mask (cycle : Option Half) (l : List Notice) (m : Mu) :
    (l.foldl (fun m n => m.take cycle n) m).mask = m.mask := by
  induction l generalizing m with
  | nil => rfl
  | cons n rest ih => rw [List.foldl_cons, ih, take_mask]

/-- Only increments change the counters (R192). -/
theorem foldl_take_counters (cycle : Option Half) (l : List Notice) (m : Mu) (h : ∀ n ∈ l, n.isCount = false) :
    (l.foldl (fun m n => m.take cycle n) m).counters = m.counters := by
  induction l generalizing m with
  | nil => rfl
  | cons n rest ih =>
    rw [List.foldl_cons, ih _ (fun x hx => h x (List.mem_cons_of_mem n hx))]
    cases n with
    | count c => cases h _ List.mem_cons_self
    | fault r => rfl
    | latch c => rfl

/-- Only fault reports change the fault record (R189). -/
theorem foldl_take_fault (cycle : Option Half) (l : List Notice) (m m' : Mu) (h : m.fault = m'.fault) :
    (l.foldl (fun m n => m.take cycle n) m).fault
      = ((l.filterMap Notice.report?).foldl (fun m r => m.report cycle r) m').fault := by
  induction l generalizing m m' with
  | nil => exact h
  | cons n rest ih =>
    cases n with
    | count c => exact ih _ _ h
    | fault r => exact ih _ _ (by simp only [Mu.take, Mu.report, h])
    | latch c => exact ih _ _ h

/-- What an axis that enters LOST makes the SE tell: its fault report, and the report to latch AXIS_LOST (R63). -/
def TellsOfLost (n : Notice) : Prop := (∃ r, n = .fault r) ∨ n = .latch .axisLost

/-- Such notices set latch FAULT when a fault report is among them, latch AXIS_LOST when a report to it is, and no other
latch (R195). -/
theorem foldl_take_latches (cycle : Option Half) (l : List Notice) (m : Mu) (h : ∀ n ∈ l, TellsOfLost n) :
    (l.foldl (fun m n => m.take cycle n) m).latches
      = { m.latches with
        fault := m.latches.fault || l.any (fun n => n.report?.isSome)
        axisLost := m.latches.axisLost || l.any (fun n => decide (n = .latch .axisLost)) } := by
  induction l generalizing m with
  | nil => simp
  | cons n rest ih =>
    rw [List.foldl_cons, ih _ (fun x hx => h x (List.mem_cons_of_mem n hx))]
    rcases h n List.mem_cons_self with ⟨r, rfl⟩ | rfl
    · simp [Mu.take, Mu.report, Notice.report?]
    · simp [Mu.take, Mu.latch, Notice.report?]

/-! ### The taking of a lost sample (R25, R48, R63) -/

/-- What the SE tells of the axes that enter LOST. -/
def toldOfLost (lost : List (Fin 16)) : List Notice := (lost.map lostNotices).flatten

theorem mem_toldOfLost_iff (lost : List (Fin 16)) (n : Notice) :
    n ∈ toldOfLost lost ↔ ∃ i ∈ lost, n = .fault (axisLostReport i) ∨ n = .latch .axisLost := by
  simp [toldOfLost, lostNotices]

theorem tellsOfLost_of_mem {lost : List (Fin 16)} {n : Notice} (h : n ∈ toldOfLost lost) : TellsOfLost n := by
  obtain ⟨i, -, rfl | rfl⟩ := (mem_toldOfLost_iff lost n).mp h
  · exact .inl ⟨_, rfl⟩
  · exact .inr rfl

theorem isCount_of_tellsOfLost {n : Notice} (h : TellsOfLost n) : n.isCount = false := by
  rcases h with ⟨r, rfl⟩ | rfl <;> rfl

/-- The fault reports among what is told: one for each axis, in order. -/
theorem reports_toldOfLost (lost : List (Fin 16)) :
    (toldOfLost lost).filterMap Notice.report? = lost.map axisLostReport := by
  induction lost with
  | nil => rfl
  | cons i rest ih =>
    rw [List.map_cons, ← ih]
    rfl

/-- An axis is told of exactly when the announcement takes it into LOST (R63). -/
theorem mem_lostByAnnouncement_iff (e : Se) (i : Fin 16) :
    i ∈ e.lostByAnnouncement ↔ (e.announcedAxis i).state = .lost ∧ e.axisRecords[i].state ≠ .lost := by
  simp [Se.lostByAnnouncement, entersLost, and_comm]

/-- The part once the SE has taken a lost sample, with `handed` behind it, before the MU is told (R48). -/
def lostTaken (s : State) (handed : List Handed) : State :=
  { s with rpu := { s.rpu with handed := handed }, se := { s.se with axisRecords := tabulate 16 s.se.announcedAxis } }

/-- LOST_SAMPLE when an announcement is handed over first (R48). -/
theorem exec_lostSample {s : State} {handed : List Handed} (hheld : s.resetHeld = false)
    (hh : s.rpu.handed = .lost :: handed) :
    exec .lostSample s
      = .next ((lostTaken s handed).send (s.se.lostByAnnouncement.map lostNotices)) := by
  refine (if_neg (by simp [hheld])).trans ?_
  rw [hh]
  rfl

/-- What the MU holds after the taking of a lost sample with nothing else on its way (R63, R189, R195). -/
theorem mu_of_toldOfLost {s t : State} {lost : List (Fin 16)} (h : Tells s t (toldOfLost lost)) (hw : s.onWay = []) :
    t.mu.counters = s.mu.counters ∧ t.mu.mask = s.mu.mask ∧ (lost = [] → t.mu = s.mu)
      ∧ (s.lag = [] → ∃ reports : List Report, reports.Perm (lost.map axisLostReport)
        ∧ t.mu.fault = (reports.foldl (fun m r => Mu.report m s.rpu.lastCycle r) s.mu).fault
        ∧ (lost ≠ [] → t.mu.latches = { s.mu.latches with fault := true, axisLost := true })) := by
  obtain ⟨taken, hmu, hperm, hlag⟩ := h
  rw [hw, List.flatMap_nil, List.nil_append] at hperm
  have hof : ∀ n ∈ taken, TellsOfLost n := fun n hn =>
    tellsOfLost_of_mem (hperm.subset (List.mem_append_left _ hn))
  rw [hmu]
  refine ⟨foldl_take_counters _ _ _ (fun n hn => isCount_of_tellsOfLost (hof n hn)), foldl_take_mask _ _ _, ?_,
    fun hl => ⟨taken.filterMap Notice.report?, ?_, foldl_take_fault _ _ _ _ rfl, fun hne => ?_⟩⟩
  · rintro rfl
    obtain ⟨rfl, -⟩ := List.append_eq_nil_iff.mp hperm.eq_nil
    rfl
  all_goals rw [hlag hl, List.flatMap_nil, List.append_nil] at hperm
  · exact reports_toldOfLost lost ▸ hperm.filterMap _
  · obtain ⟨i, hi⟩ := List.exists_mem_of_ne_nil lost hne
    have hfault : .fault (axisLostReport i) ∈ taken :=
      hperm.mem_iff.mpr ((mem_toldOfLost_iff _ _).mpr ⟨i, hi, .inl rfl⟩)
    have hlatch : .latch .axisLost ∈ taken := hperm.mem_iff.mpr ((mem_toldOfLost_iff _ _).mpr ⟨i, hi, .inr rfl⟩)
    have hanyFault : taken.any (fun n => n.report?.isSome) = true := List.any_eq_true.mpr ⟨_, hfault, rfl⟩
    have hanyLatch : taken.any (fun n => decide (n = .latch .axisLost)) = true :=
      List.any_eq_true.mpr ⟨_, hlatch, decide_eq_true rfl⟩
    rw [foldl_take_latches _ _ _ hof, hanyFault, hanyLatch, Bool.or_true, Bool.or_true]

/-- Settles O49: the records by `announcedAxis`, what is told by the axes it takes into LOST, and the MU by what it
makes of that. -/
theorem lostSampleIsAMiss : Obligations.LostSampleIsAMiss := by
  intro s handed hheld hh
  have htells : Tells (lostTaken s handed)
      ((lostTaken s handed).send (s.se.lostByAnnouncement.map lostNotices)) (toldOfLost s.se.lostByAnnouncement) :=
    tells_send (s := lostTaken s handed) hheld _
  refine ⟨tabulate 16 s.se.announcedAxis, s.se.lostByAnnouncement, _, exec_lostSample hheld hh, rfl,
    fun i d hd => ?_, fun i hd => ?_, (List.nodup_finRange 16).filter _, fun i => ?_,
    ⟨send_iq (lostTaken s handed) _, send_cp (lostTaken s handed) _, send_resetHeld (lostTaken s handed) _,
      send_pending (lostTaken s handed) _, send_line (lostTaken s handed) _⟩,
    send_rpu (lostTaken s handed) _, send_se (lostTaken s handed) _, fun hw => ?_, fun hw => ?_⟩
  · simp [Se.announcedAxis, hd]
  · simp [Se.announcedAxis, hd]
  · simpa using mem_lostByAnnouncement_iff s.se i
  · obtain ⟨hcounters, hmask, hnone, -⟩ := mu_of_toldOfLost htells hw
    exact ⟨hcounters, hmask, hnone⟩
  · obtain ⟨-, -, -, hatOnce⟩ := mu_of_toldOfLost htells hw
    exact hatOnce

end Sys2Proof.Proofs

/-!
PROOFS. The state after reset, and the laws there.
-/
namespace Sys2Proof.Proofs

open Sys2Proof.Machine Sys2Proof.Claims

/-! ### An empty bank (R96, R102) -/

@[simp] theorem empty_axes (i : Fin 16) : Bank.empty.axes[i] = none := by simp [Bank.empty]

@[simp] theorem empty_lists (t : Fin 32) : Bank.empty.lists[t] = [] := by simp [Bank.empty]

@[simp] theorem empty_enabledTrack (t : Fin 32) : Bank.empty.enabledTrack t = none := by
  simp [Bank.enabledTrack, Bank.empty]

/-- An empty bank has no axis, no status slot and no track to break a condition (R102). -/
theorem validate_empty : Bank.empty.validate = none := by
  have haxes : (List.finRange 16).findSome? Bank.empty.axisFault = none :=
    List.findSome?_eq_none_iff.mpr (fun i _ => by simp only [Bank.axisFault, empty_axes])
  have htracks : (List.finRange 32).findSome? Bank.empty.trackFault = none :=
    List.findSome?_eq_none_iff.mpr (fun t _ => by simp only [Bank.trackFault, empty_enabledTrack])
  have hstatus : Bank.empty.statusFault = none := rfl
  simp only [Bank.validate, haxes, hstatus, htracks]

/-- An empty bank has its whole pool free (R72). -/
theorem poolOk_empty : Safety.PoolOk .empty := by
  refine ⟨fun t => by rw [empty_lists]; exact Nat.zero_le _, ?_⟩
  simp [Bank.used, Bank.empty, Config.poolEntries]

/-- An empty bank holds no definition out of range (R103). -/
theorem axisDefsOk_empty : Safety.AxisDefsOk .empty := fun i d h => by
  rw [empty_axes] at h
  cases h

/-! ### The laws after reset -/

theorem reset_axisRecords (i : Fin 16) : State.reset.se.axisRecords[i] = .cleared .unbound := by
  simp [State.reset, Se.reset]

theorem reset_trackRecords (t : Fin 32) : State.reset.se.trackRecords[t] = .cleared := by
  simp [State.reset, Se.reset]

theorem reset_capacities : Safety.Capacities State.reset := by
  unfold Safety.Capacities
  decide

theorem reset_addressing : Safety.Addressing State.reset := ⟨iff_of_true rfl rfl, Nat.zero_le _, nofun⟩

theorem reset_activeValid : Safety.ActiveValid State.reset := ⟨validate_empty, nofun, fun _ => nofun⟩

theorem reset_inFlight : Safety.InFlight State.reset :=
  ⟨⟨nofun, nofun⟩, ⟨nofun, nofun⟩, ⟨nofun, nofun⟩, fun _ => rfl, fun h => absurd rfl h⟩

theorem reset_binding : Safety.Binding State.reset := by
  intro i
  rw [reset_axisRecords]
  exact ⟨iff_of_true rfl (empty_axes i), fun _ => rfl⟩

theorem reset_records : Safety.Records State.reset := by
  refine ⟨axisDefsOk_empty, axisDefsOk_empty, fun i d h => ?_⟩
  cases (empty_axes i).symm.trans h

theorem reset_retries : Safety.Retries State.reset := ⟨List.nodup_nil, nofun⟩

theorem reset_replies : Safety.Replies State.reset := ⟨nofun, nofun, nofun⟩

/-- Settles O60: the values by definition, the laws from the empty banks and queues. -/
theorem resetStateIsAsStated : Obligations.ResetStateIsAsStated := by
  refine ⟨rfl, rfl, rfl, rfl, rfl, rfl, rfl, rfl, rfl, rfl, rfl, fun name => ?_, rfl, rfl, rfl, rfl, reset_axisRecords,
    reset_trackRecords, rfl, rfl, rfl, rfl, fun c => ?_, rfl, rfl, ⟨poolOk_empty, poolOk_empty⟩, reset_capacities,
    ⟨rfl, nofun⟩, reset_addressing, reset_activeValid, reset_inFlight, reset_binding, reset_records, reset_retries,
    reset_replies⟩
  · cases name <;> rfl
  · simp [State.reset, Mu.reset]

end Sys2Proof.Proofs

/-!
PROOFS. The axes: deltas and sums by kind, the sample of an axis, and what good samples and misses make of a record.
-/
namespace Sys2Proof.Proofs

open Sys2Proof.Machine Sys2Proof.Claims

/-! ### Deltas and sums (R50, R51, R62, R66) -/

theorem delta_of_linear {d : AxisDef} (h : d.kind = .linear) (p x : Int) : d.delta p x = x - p := by
  rw [AxisDef.delta, h]

/-- The way round of a ROTARY axis that is taken as its delta: the one forward, or where that is longer than half a
turn the one back (R50). -/
theorem delta_of_rotary {d : AxisDef} (h : d.kind = .rotary) (p x : Int) :
    d.delta p x = if (d.modulus : Int) < 2 * ((x - p) % (d.modulus : Int)) then
      (x - p) % (d.modulus : Int) - (d.modulus : Int) else (x - p) % (d.modulus : Int) := by
  rw [AxisDef.delta, h]

/-- A delta of a ROTARY axis differs from the difference by whole turns, and is at most half a turn (R50). -/
theorem delta_rotary_spec {d : AxisDef} (h : d.kind = .rotary) (hm : 1 ≤ d.modulus) (p x : Int) :
    (∃ k : Int, d.delta p x = x - p + k * d.modulus)
      ∧ -(d.modulus : Int) < 2 * d.delta p x ∧ 2 * d.delta p x ≤ d.modulus := by
  have hdiv := Int.emod_add_mul_ediv (x - p) (d.modulus : Int)
  have hlow := Int.emod_nonneg (x - p) (b := (d.modulus : Int)) (by omega)
  have hhigh := Int.emod_lt_of_pos (x - p) (b := (d.modulus : Int)) (by omega)
  rw [delta_of_rotary h]
  split
  · refine ⟨⟨-((x - p) / (d.modulus : Int)) - 1, ?_⟩, by omega, by omega⟩
    linear_combination hdiv
  · refine ⟨⟨-((x - p) / (d.modulus : Int)), ?_⟩, by omega, by omega⟩
    linear_combination hdiv

/-- Holding a sum within 32 signed bits (R62, R66). -/
theorem clampLinear_eq (x : Int) : clampLinear x = max (-2147483648) (min x 2147483647) := by
  unfold clampLinear
  split_ifs <;> omega

theorem reduce_of_linear {d : AxisDef} (h : d.kind = .linear) (x : Int) :
    d.reduce x = max (-2147483648) (min x 2147483647) := by
  rw [AxisDef.reduce, h, ← clampLinear_eq]

/-- A sum taken modulo M (R62, R66). -/
theorem reduce_rotary_spec {d : AxisDef} (h : d.kind = .rotary) (hm : 1 ≤ d.modulus) (x : Int) :
    0 ≤ d.reduce x ∧ d.reduce x < d.modulus ∧ ∃ k : Int, d.reduce x = x + k * d.modulus := by
  have hdiv := Int.emod_add_mul_ediv x (d.modulus : Int)
  rw [AxisDef.reduce, h]
  refine ⟨Int.emod_nonneg _ (by omega), Int.emod_lt_of_pos _ (by omega), -(x / (d.modulus : Int)), ?_⟩
  linear_combination hdiv

/-- Settles O40: each kind by its own equation, the effective position as one more sum brought into range. -/
theorem deltasAndSumsFollowTheKind : Obligations.DeltasAndSumsFollowTheKind := by
  refine ⟨fun d p x hk hm _ _ _ _ => delta_rotary_spec hk (by omega) p x,
    fun d r lead => ⟨fun hk => ?_, fun hk hm => ?_⟩⟩
  · exact ⟨delta_of_linear hk, reduce_of_linear hk, reduce_of_linear hk _⟩
  · obtain ⟨hlow, hhigh, k, heq⟩ := reduce_rotary_spec hk hm (r.position + r.velocity * (lead.val : Int))
    exact ⟨reduce_rotary_spec hk hm, k, hlow, hhigh, heq⟩

/-! ### The sample of an axis (R49, R52) -/

/-- A slot is a POSITION slot exactly when its type byte is 1 (R8). -/
theorem slotRole_eq_position_iff (f : Frame) (o : Nat) : slotRole f o = .position ↔ byteAt f (o + 1) = 1#8 := by
  unfold slotRole SlotRole.ofByte
  split_ifs <;> simp_all

/-- The value of a slot is a candidate: a signed number for LINEAR, an unsigned one below the modulus for ROTARY
(R10, R49). -/
def Candidate (d : AxisDef) (w : Word) (x : Int) : Prop :=
  (d.kind = .linear ∧ x = w.toInt) ∨ (d.kind = .rotary ∧ w.toNat < d.modulus ∧ x = w.toNat)

theorem candidate_eq_some_iff (d : AxisDef) (w : Word) (x : Int) : d.candidate w = some x ↔ Candidate d w x := by
  unfold AxisDef.candidate Candidate
  cases hk : d.kind with
  | linear => simp [eq_comm]
  | rotary =>
    simp only [reduceCtorEq, false_and, true_and, false_or]
    split
    · next h => simp [h, eq_comm]
    · next h => simp [h]

theorem candidate_eq_none_of_rotary {d : AxisDef} {w : Word} (hk : d.kind = .rotary) (h : d.modulus ≤ w.toNat) :
    d.candidate w = none := by
  rw [AxisDef.candidate, hk]
  exact if_neg (Nat.not_lt.mpr h)

/-- The first test: the slot is absent (R49). -/
theorem sample_of_absent {d : AxisDef} {f : Frame} (r : AxisRecord) (h : findSlot f d.source = none) :
    d.sample f r = .absent := by
  rw [AxisDef.sample, h]

/-- The second test: the slot is of another type (R49). -/
theorem sample_of_wrong_type {d : AxisDef} {f : Frame} {o : Nat} (r : AxisRecord) (h : findSlot f d.source = some o)
    (ht : byteAt f (o + 1) ≠ 1#8) : d.sample f r = .wrongType := by
  rw [AxisDef.sample, h]
  have hrole : slotRole f o ≠ .position := mt (slotRole_eq_position_iff f o).mp ht
  cases hr : slotRole f o with
  | position => exact absurd hr hrole
  | action | status | opaqueRole => simp only [hr]

/-- The third test: the value of the POSITION slot is out of range (R49). -/
theorem sample_of_no_candidate {d : AxisDef} {f : Frame} {o : Nat} (r : AxisRecord) (h : findSlot f d.source = some o)
    (ht : byteAt f (o + 1) = 1#8) (hc : d.candidate (wordAt f (o + 2)) = none) : d.sample f r = .outOfRange := by
  have hc : d.candidate (slotValue f o) = none := hc
  simp only [AxisDef.sample, h, (slotRole_eq_position_iff f o).mpr ht, hc]

/-- A candidate that passes the three tests goes through the step check (R49, R52). -/
theorem sample_of_candidate {d : AxisDef} {f : Frame} {o : Nat} {x : Int} (r : AxisRecord)
    (h : findSlot f d.source = some o) (ht : byteAt f (o + 1) = 1#8) (hc : d.candidate (wordAt f (o + 2)) = some x) :
    d.sample f r = d.checked r x := by
  have hc : d.candidate (slotValue f o) = some x := hc
  simp only [AxisDef.sample, h, (slotRole_eq_position_iff f o).mpr ht, hc]

/-- The step check where it applies (R52). -/
theorem checked_of_stepChecked {d : AxisDef} {r : AxisRecord} (h : r.state.stepChecked = true) (x : Int) :
    d.checked r x = if d.maxStep < (d.delta r.position x).natAbs then .implausible (d.delta r.position x).natAbs
      else .good x := by
  simp [AxisDef.checked, h]

/-- Where the step check does not apply every candidate is good (R52). -/
theorem checked_of_not_stepChecked {d : AxisDef} {r : AxisRecord} (h : r.state.stepChecked = false) (x : Int) :
    d.checked r x = .good x := by
  simp [AxisDef.checked, h]

/-- An axis follows its source: in these states the step check applies (R52), and misses count towards the stale limit
(R59). -/
def Follows (a : AxisState) : Prop := a = .acquiring ∨ a = .tracking ∨ a = .coasting

theorem stepChecked_iff (a : AxisState) : a.stepChecked = true ↔ Follows a := by
  cases a <;> simp [AxisState.stepChecked, Follows]

/-- Settles O41: the tests in their order, then the step check by the state. -/
theorem sampleIsTestedInOrder : Obligations.SampleIsTestedInOrder := by
  refine fun d f r => ⟨sample_of_absent r, fun o ho => ⟨sample_of_wrong_type r ho, fun ht hk hm => ?_,
    fun x ht hx => ⟨fun hs => ?_, fun hs => ?_⟩⟩⟩
  · exact sample_of_no_candidate r ho ht (candidate_eq_none_of_rotary hk hm)
  all_goals rw [sample_of_candidate r ho ht ((candidate_eq_some_iff d _ x).mpr hx)]
  · have hchecked : d.checked r x = _ := checked_of_stepChecked ((stepChecked_iff _).mpr hs) x
    exact ⟨fun h => hchecked.trans (if_pos h), fun h => hchecked.trans (if_neg (Nat.not_lt.mpr h))⟩
  · refine checked_of_not_stepChecked ?_ x
    rcases hs with hs | hs <;> rw [hs] <;> rfl

/-- A good sample is the candidate of the slot, and its delta passes the step check where that applies (R49, R52). -/
theorem candidate_of_good {d : AxisDef} {f : Frame} {r : AxisRecord} {x : Int} (h : d.sample f r = .good x) :
    (∃ w, Candidate d w x) ∧ (r.state.stepChecked = true → (d.delta r.position x).natAbs ≤ d.maxStep) := by
  cases ho : findSlot f d.source with
  | none => cases (sample_of_absent r ho).symm.trans h
  | some o =>
    by_cases ht : byteAt f (o + 1) = 1#8
    · cases hc : d.candidate (wordAt f (o + 2)) with
      | none => cases (sample_of_no_candidate r ho ht hc).symm.trans h
      | some y =>
        rw [sample_of_candidate r ho ht hc] at h
        have hy := (candidate_eq_some_iff d _ y).mp hc
        cases hs : r.state.stepChecked with
        | false =>
          obtain rfl : y = x := Sample.good.inj ((checked_of_not_stepChecked hs y).symm.trans h)
          exact ⟨⟨_, hy⟩, nofun⟩
        | true =>
          rw [checked_of_stepChecked hs] at h
          split at h
          · cases h
          · next hstep =>
            obtain rfl := Sample.good.inj h
            exact ⟨⟨_, hy⟩, fun _ => Nat.not_lt.mp hstep⟩
    · cases (sample_of_wrong_type r ho ht).symm.trans h

/-! ### Good samples and misses (R54 to R64) -/

/-- A good sample of a frame is taken as such (R48). -/
theorem updated_of_good {d : AxisDef} {f : Frame} {r : AxisRecord} {x : Int} (h : d.sample f r = .good x) :
    d.updated f r = d.onGood (cycleOf f) x r := by
  rw [AxisDef.updated, h]

/-- Every other sample of a frame is a miss (R48, R49). -/
theorem updated_of_miss {d : AxisDef} {f : Frame} {r : AxisRecord} (h : ∀ x, d.sample f r ≠ .good x) :
    d.updated f r = d.onFrameMiss r := by
  unfold AxisDef.updated
  split
  · next hx => exact absurd hx (h _)
  all_goals rfl

/-- Consecutive is the cycle behind the last good one (R54). -/
theorem consecutive_iff (r : AxisRecord) (c : Half) : r.consecutive c = true ↔ r.lastGood = some (c - 1#16) := by
  unfold AxisRecord.consecutive
  cases r.lastGood with
  | none => simp
  | some l =>
    rw [decide_eq_true_eq, Option.some.injEq]
    constructor
    · rintro rfl
      exact (BitVec.add_sub_cancel l 1#16).symm
    · rintro rfl
      exact (BitVec.sub_add_cancel c 1#16).symm

/-- An axis in WAITING or LOST acquires from its first good sample (R55). -/
theorem onGood_acquires {r : AxisRecord} (h : r.state = .waiting ∨ r.state = .lost) (d : AxisDef) (c : Half)
    (x : Int) :
    d.onGood c x r =
      { state := .acquiring, position := x, velocity := 0, direction := .unknown, missed := 0#8
        lastGood := some c } := by
  rcases h with h | h <;> rw [AxisDef.onGood, h]

/-- In ACQUIRING and TRACKING a consecutive good sample gives the velocity (R56, R57). -/
theorem onGood_consecutive {r : AxisRecord} {c : Half} (h : r.state = .acquiring ∨ r.state = .tracking)
    (hc : r.lastGood = some (c - 1#16)) (d : AxisDef) (x : Int) :
    d.onGood c x r =
      { state := .tracking, position := x, velocity := d.delta r.position x
        direction := learnedDirection r.direction (d.delta r.position x), missed := 0#8, lastGood := some c } := by
  have hcons := (consecutive_iff r c).mpr hc
  rcases h with h | h <;> simp only [AxisDef.onGood, h, hcons, if_true]

/-- In ACQUIRING and TRACKING a good sample that is not consecutive keeps the velocity and the state (R56, R57). -/
theorem onGood_not_consecutive {r : AxisRecord} {c : Half} (h : r.state = .acquiring ∨ r.state = .tracking)
    (hc : r.lastGood ≠ some (c - 1#16)) (d : AxisDef) (x : Int) :
    d.onGood c x r = { r with position := x, missed := 0#8, lastGood := some c } := by
  have hcons : r.consecutive c = false := Bool.eq_false_iff.mpr (mt (consecutive_iff r c).mp hc)
  rcases h with h | h <;> simp [AxisDef.onGood, h, hcons]

/-- In COASTING a good sample returns to TRACKING with the velocity kept (R58). -/
theorem onGood_coasting {r : AxisRecord} (h : r.state = .coasting) (d : AxisDef) (c : Half) (x : Int) :
    d.onGood c x r = { r with state := .tracking, position := x, missed := 0#8, lastGood := some c } := by
  rw [AxisDef.onGood, h]

/-- One more miss below 255. -/
theorem byteUp_of_lt {b : Byte} (h : b.toNat < 255) : byteUp b = b + 1#8 ∧ (byteUp b).toNat = b.toNat + 1 := by
  have hne : b ≠ 255#8 := by
    rintro rfl
    exact absurd h (by decide)
  have heq : byteUp b = b + 1#8 := if_neg hne
  refine ⟨heq, ?_⟩
  rw [heq, BitVec.toNat_add]
  exact Nat.mod_eq_of_lt (by simp; omega)

/-- Outside ACQUIRING, TRACKING and COASTING a miss changes nothing, but that of a frame counts in LOST (R59, R64). -/
theorem onMiss_of_not_follows {r : AxisRecord} (h : ¬ Follows r.state) (d : AxisDef) : d.onMiss r = r := by
  unfold AxisDef.onMiss
  cases hs : r.state <;> simp_all [Follows]

/-- A miss that reaches the stale limit takes the axis into LOST (R60, R61). -/
theorem onMiss_stale {d : AxisDef} {r : AxisRecord} (h : Follows r.state)
    (hstale : d.stale.toNat ≤ (byteUp r.missed).toNat) :
    d.onMiss r = { r with state := .lost, missed := byteUp r.missed } := by
  rcases h with h | h | h <;> simp [AxisDef.onMiss, h, hstale]

/-- In ACQUIRING a miss below the stale limit is counted (R60). -/
theorem onMiss_acquiring {d : AxisDef} {r : AxisRecord} (h : r.state = .acquiring)
    (hfresh : (byteUp r.missed).toNat < d.stale.toNat) : d.onMiss r = { r with missed := byteUp r.missed } := by
  simp [AxisDef.onMiss, h, hfresh]

/-- In TRACKING and COASTING a miss below the stale limit carries the position forward (R61, R62). -/
theorem onMiss_carries {d : AxisDef} {r : AxisRecord} (h : r.state = .tracking ∨ r.state = .coasting)
    (hfresh : (byteUp r.missed).toNat < d.stale.toNat) :
    d.onMiss r =
      { r with state := .coasting, missed := byteUp r.missed, position := d.reduce (r.position + r.velocity) } := by
  rcases h with h | h <;> simp [AxisDef.onMiss, h, Nat.not_le.mpr hfresh]

/-- A miss of a frame is a miss, but in LOST it is counted (R64). -/
theorem onFrameMiss_of_lost {r : AxisRecord} (h : r.state = .lost) (d : AxisDef) :
    d.onFrameMiss r = { r with missed := byteUp r.missed } := by
  rw [AxisDef.onFrameMiss, h]

theorem onFrameMiss_of_not_lost {r : AxisRecord} (h : r.state ≠ .lost) (d : AxisDef) :
    d.onFrameMiss r = d.onMiss r := by
  unfold AxisDef.onFrameMiss
  cases hs : r.state <;> simp_all

/-- Settles O42: a good sample and a miss by the state of the axis, the miss by whether it reaches the stale limit. -/
theorem goodSamplesAndMissesMoveTheAxis : Obligations.GoodSamplesAndMissesMoveTheAxis := by
  refine ⟨fun d f r x hx => ?_, fun d f r hmiss => ⟨fun hs => ?_, fun hs => ?_, fun hs hcount => ?_⟩⟩
  · rw [updated_of_good hx]
    exact ⟨fun hs => onGood_acquires hs d _ x, fun hs hc => onGood_consecutive hs hc d x,
      fun hs hc => onGood_not_consecutive hs hc d x, fun hs => onGood_coasting hs d _ x⟩
  all_goals rw [updated_of_miss hmiss]
  · have hstays : d.onMiss r = r := onMiss_of_not_follows (by simp [Follows, hs]) d
    exact ⟨(onFrameMiss_of_not_lost (by simp [hs]) d).trans hstays, hstays⟩
  · exact ⟨onFrameMiss_of_lost hs d, onMiss_of_not_follows (by simp [Follows, hs]) d⟩
  · obtain ⟨hup, hnum⟩ := byteUp_of_lt hcount
    have hnotLost : r.state ≠ .lost := by rcases hs with hs | hs | hs <;> simp [hs]
    rw [← hup, ← hnum]
    exact ⟨onFrameMiss_of_not_lost hnotLost d, onMiss_stale hs, fun hfresh ha => onMiss_acquiring ha hfresh,
      fun hfresh ht => onMiss_carries ht hfresh⟩

end Sys2Proof.Proofs

/-!
PROOFS. What a step can change in the tables and the axis records of the SE, one move at a time, and the laws of
binding, pools and ranges: every move keeps them, so every step does.
-/
namespace Sys2Proof.Proofs

open Sys2Proof.Machine Sys2Proof.Claims

/-! ### The moves of the SE -/

/-- One edit of the STAGED bank, with what the commands allow it by (R45, R70, R74 to R76, R91). -/
inductive BankEdit : Bank → Bank → Prop where
  /-- An axis definition in range is written (R45). -/
  | defineAxis {b : Bank} (i : Fin 16) (d : AxisDef) (hd : Safety.AxisDefOk d) : BankEdit b (b.setAxis i (some d))
  /-- An axis definition is made absent (R45). -/
  | clearAxis {b : Bank} (i : Fin 16) : BankEdit b (b.setAxis i none)
  /-- A track definition is written (R70). -/
  | defineTrack {b : Bank} (t : Fin 32) (d : TrackDef) : BankEdit b (b.setTrack t d)
  /-- A track definition is made absent and its list emptied (R76). -/
  | clearTrack {b : Bank} (t : Fin 32) : BankEdit b (b.clearTrack t)
  /-- A list of up to 16 windows, for which the pool has room, replaces a list (R74, R75). -/
  | loadWindows {b : Bank} (t : Fin 32) (l : List Window) (hlen : l.length ≤ 16)
      (hroom : l.length ≤ b.free + b.lists[t].length) : BankEdit b (b.setList t l)
  /-- The status slot definition is set (R91). -/
  | statusSlot {b : Bank} (slot : Option Byte) : BankEdit b { b with statusSlot := slot }

/-- One change of the SE. Every step is a run of these (`seMoves_of_step`), so a law of the banks and the axis records
that every move keeps holds at every step. -/
inductive SeMove : Se → Se → Prop where
  /-- Neither the banks by role nor the axis records change. -/
  | elsewhere {e e' : Se} (hactive : e'.active = e.active) (hstaged : e'.staged = e.staged)
      (hrecords : e'.axisRecords = e.axisRecords) : SeMove e e'
  /-- An edit of the STAGED bank (R98). -/
  | edit {e : Se} {b : Bank} (h : BankEdit e.staged b) : SeMove e (e.withStaged b)
  /-- The STAGED bank takes what the ACTIVE bank holds (R99). -/
  | copy {e : Se} : SeMove e (e.withStaged e.active)
  /-- The STAGED bank is emptied (R100). -/
  | clear {e : Se} : SeMove e (e.withStaged .empty)
  /-- The swap (R113). -/
  | swap {e : Se} : SeMove e e.swap
  /-- The axis updates of a frame (R48). -/
  | sample {e : Se} (f : Frame) : SeMove e (e.updateAxes f)
  /-- The axis updates of a lost-sample announcement (R48). -/
  | lost {e : Se} : SeMove e { e with axisRecords := tabulate 16 e.announcedAxis }
  /-- The records are cleared by RESUME (R179). -/
  | clearRecords {e : Se} : SeMove e e.clearRecords
  /-- The SE is reset (R123). -/
  | reset {e : Se} : SeMove e .reset

/-- The SE of one state becomes that of another by a run of moves. -/
def SeMoves (s t : State) : Prop := Relation.ReflTransGen SeMove s.se t.se

theorem seMoves_of_eq {s t : State} (h : t.se = s.se) : SeMoves s t := by
  rw [SeMoves, h]

theorem SeMoves.trans {s u t : State} (h : SeMoves s u) (h' : SeMoves u t) : SeMoves s t :=
  Relation.ReflTransGen.trans h h'

theorem seMoves_single {s t : State} (h : SeMove s.se t.se) : SeMoves s t := .single h

/-- A run of moves ends as well in any state with the same SE. -/
theorem SeMoves.congr {s u t : State} (h : SeMoves s u) (ht : t.se = u.se) : SeMoves s t :=
  h.trans (seMoves_of_eq ht)

/-! ### The rows of the RPU leave the SE alone -/

/-- The test of R30 leaves the SE alone when the routes of the frame do. -/
theorem ifRoom_se_of_routes {s : State} (f : Frame) (routes : State → State)
    (h : (routes s).se = s.se) : (s.ifRoom f routes).se = s.se := by
  rcases ifRoom_cases s f routes with ⟨-, hs⟩ | ⟨-, hs⟩ <;> rw [hs]
  · exact send_se s _
  · exact h

@[simp] theorem routeSample_se (s : State) (f : Frame) : (s.routeSample f).se = s.se := by
  unfold State.routeSample
  split <;> rfl

@[simp] theorem routeLost_se (s : State) (f : Frame) : (s.routeLost f).se = s.se := by
  unfold State.routeLost State.announceLost
  split <;> rfl

@[simp] theorem routeEnumerate_se (s : State) (f : Frame) : (s.routeEnumerate f).se = s.se := by
  unfold State.routeEnumerate
  split <;> rfl

@[simp] theorem offerUnicast_se (s : State) (e : CommandEntry) : (s.offerUnicast e).se = s.se := by
  unfold State.offerUnicast State.takeDuplicate State.discardOffer State.acceptUnicast
  split
  · split
    · exact send_se _ _
    · split <;> exact send_se _ _
  · split_ifs <;> exact send_se _ _

@[simp] theorem offerBroadcast_se (s : State) (e : CommandEntry) : (s.offerBroadcast e).se = s.se := by
  unfold State.offerBroadcast State.discardOffer
  split_ifs <;> exact send_se _ _

@[simp] theorem takeUnicast_se (s : State) (f : Frame) (valid : Bool) : (s.takeUnicast f valid).se = s.se := by
  unfold State.takeUnicast State.discardOffer
  split
  · exact send_se _ _
  · exact offerUnicast_se _ _

theorem se_receiveSample {f : Frame} {s t : State} (ht : execReceiveSample f s = .next t) : t.se = s.se := by
  rcases execReceiveSample_cases ht with rfl | ⟨-, ⟨-, rfl⟩ | ⟨-, rfl⟩⟩
  · rfl
  · exact ifRoom_se_of_routes f _ (by simp)
  · exact ifRoom_se_of_routes f _ (by simp)

theorem se_receiveDamaged {f : Frame} {s t : State} (ht : execReceiveDamaged f s = .next t) : t.se = s.se := by
  rcases execReceiveDamaged_cases ht with rfl | ⟨-, -, rfl⟩
  · rfl
  · refine ifRoom_se_of_routes f _ ?_
    split <;> simp

theorem se_receiveCommand {f : Frame} {s t : State} (ht : execReceiveCommand f s = .next t) : t.se = s.se := by
  rcases execReceiveCommand_cases ht with rfl | ⟨-, valid, -, ⟨-, rfl⟩ | ⟨-, -, -, rfl⟩ | ⟨-, -, rfl⟩⟩
  · rfl
  · exact takeUnicast_se _ _ _
  · exact ifRoom_se_of_routes f _ (by simp)
  · exact ifRoom_se_of_routes f _ rfl

theorem se_receiveReply {f : Frame} {s t : State} (ht : execReceiveReply f s = .next t) : t.se = s.se := by
  rcases execReceiveReply_cases ht with rfl | ⟨-, rfl | rfl⟩
  · rfl
  · exact send_se _ _
  · exact ifRoom_se_of_routes f _ rfl

theorem se_receiveEnumerate {f : Frame} {s t : State} (ht : execReceiveEnumerate f s = .next t) : t.se = s.se := by
  rcases execReceiveEnumerate_cases ht with rfl | ⟨-, -, rfl⟩
  · rfl
  · exact ifRoom_se_of_routes f _ (by simp)

theorem se_receiveForeign {f : Frame} {s t : State} (ht : execReceiveForeign f s = .next t) : t.se = s.se := by
  rcases execReceiveForeign_cases ht with rfl | ⟨-, ⟨-, rfl⟩ | ⟨-, rfl⟩⟩
  · rfl
  · exact ifRoom_se_of_routes f _ (by simp)
  · exact ifRoom_se_of_routes f _ rfl

/-! ### The shared operations of the CP -/

/-- Beginning a command is a run of moves when the command's own tests and effect are one. -/
theorem seMoves_beginsIf {s : State} (admits : CommandEntry → Bool) (own : CommandEntry → State)
    (hown : ∀ e, admits e = true → e.refusal = none → SeMoves s (own e)) : SeMoves s (s.beginsIf admits own) := by
  rcases beginsIf_cases s admits own with h | ⟨e, rest, -, -, -, ha, ⟨status, words, -, h⟩ | ⟨hr, h⟩⟩ <;> rw [h]
  · exact seMoves_of_eq rfl
  · exact seMoves_of_eq (complete_se _ _ _)
  · exact hown e ha hr

/-- A command that leaves the SE alone, whatever its argument words. -/
theorem seMoves_beginsIf_of_eq {s : State} (admits : CommandEntry → Bool) (own : CommandEntry → State)
    (hown : ∀ e, (own e).se = s.se) : SeMoves s (s.beginsIf admits own) :=
  seMoves_beginsIf admits own (fun e _ _ => seMoves_of_eq (hown e))

/-- An edit behind the edit lock is no change, or the edit of the STAGED bank (R98). -/
theorem seMoves_edit {s : State} (change : Bank → Bank) (words : Bank → List Word)
    (h : BankEdit s.se.staged (change s.se.staged)) : SeMoves s (s.edit change words) := by
  rcases edit_cases s change words with ⟨-, hs⟩ | ⟨-, hs⟩ <;> rw [hs]
  · exact seMoves_of_eq (complete_se _ _ _)
  · have edited : SeMoves s { s with se := s.se.withStaged (change s.se.staged) } := seMoves_single (.edit h)
    exact edited.congr (complete_se _ _ _)

/-- DEFINE_AXIS carries a definition in the ranges of R44 once it has passed the general refusals (R148). -/
theorem axisDefOk_of_refusal {e : CommandEntry} (hc : e.command = some .defineAxis) (hr : e.refusal = none) :
    Safety.AxisDefOk e.axisDef := by
  obtain ⟨-, hcount, hrange⟩ := (refusal_eq_none_iff e _ hc).mp hr
  have hlen : e.args.length = 6 := by simpa [Command.countOk] using hcount
  have range (j : Nat) (hj : j < 6) := (inRange_iff _ _ _ (by omega)).mp (hrange j)
  have hstale : 1 ≤ e.num 4 ∧ e.num 4 ≤ 255 := range 4 (by omega) _ rfl
  have hstep : 1 ≤ e.num 5 ∧ e.num 5 ≤ 1073741824 := range 5 (by omega) _ rfl
  have hmodulus : e.num 2 = 1 → 2 ≤ e.num 3 ∧ e.num 3 ≤ 2147483648 := by
    intro h
    have hrotary : e.args[2]? = some 1#32 := by
      rw [CommandEntry.num, CommandEntry.arg, List.getD_eq_getElem?_getD, List.getElem?_eq_getElem (by omega)] at h
      rw [List.getElem?_eq_getElem (by omega)]
      exact congrArg some (BitVec.eq_of_toNat_eq h)
    have := range 3 (by omega) (2, 2147483648)
    simpa [rangesOf, codeOf, hrotary, CommandEntry.num, CommandEntry.arg] using this
  refine ⟨fun hk => ?_, fun hk => ?_, ?_, hstep⟩
  · have hk : AxisKind.ofCode (e.num 2) = .linear := hk
    simp [CommandEntry.axisDef, hk]
  · have hk : AxisKind.ofCode (e.num 2) = .rotary := hk
    have hone : e.num 2 = 1 := by
      unfold AxisKind.ofCode at hk
      split at hk
      · assumption
      · cases hk
    simpa [CommandEntry.axisDef, hk] using hmodulus hone
  · show 1 ≤ (BitVec.ofNat 8 (e.num 4)).toNat
    rw [BitVec.toNat_ofNat]
    omega

/-- The length of a list after a load that starts within it (R74, R75). -/
theorem loadedList_length {old load : List Window} {start : Nat} (h : start ≤ old.length) (truncate : Bool) :
    (loadedList old start truncate load).length = loadLength old.length start load.length truncate := by
  unfold loadedList loadLength
  cases truncate
  · simp only [Bool.false_eq_true, if_false, List.length_append, List.length_take, List.length_drop]
    omega
  · simp [h]

/-- LOAD_WINDOWS loads within the list and the pool, or nothing (R74). -/
theorem seMoves_loadWindows (s : State) (e : CommandEntry) : SeMoves s (s.loadWindows e) := by
  unfold State.loadWindows
  simp only
  split_ifs with hlock hstart hlen hfree
  · exact seMoves_of_eq (complete_se _ _ _)
  · exact seMoves_of_eq (complete_se _ _ _)
  · exact seMoves_of_eq (complete_se _ _ _)
  · exact seMoves_of_eq (complete_se _ _ _)
  · have hlength := loadedList_length (load := e.windows) (Nat.not_lt.mp hstart) (e.yes 2)
    refine seMoves_edit _ _ (.loadWindows _ _ ?_ ?_)
    · rw [hlength]
      exact Nat.not_lt.mp hlen
    · rw [hlength]
      omega

theorem seMoves_startStaged (s : State) (op : StagedOp) (x : Flight) : SeMoves s (s.startStaged op x) := by
  unfold State.startStaged
  split
  · exact seMoves_of_eq (complete_se _ _ _)
  · exact seMoves_single (.elsewhere rfl rfl rfl)

/-- A staged operation ends with the STAGED bank it makes (R99, R100). -/
theorem seMoves_endStaged {s : State} {b : Bank} (h : SeMove s.se (s.se.withStaged b)) (words : List Word) :
    SeMoves s (State.complete { s with se := { s.se.withStaged b with stagedOp := .idle } } .ok words) := by
  have changed : SeMoves s { s with se := s.se.withStaged b } := seMoves_single h
  have ended : SeMoves { s with se := s.se.withStaged b }
      { s with se := { s.se.withStaged b with stagedOp := .idle } } := seMoves_single (.elsewhere rfl rfl rfl)
  exact (changed.trans ended).congr (complete_se _ _ _)

@[simp] theorem reportTooLate_se (s : State) (o : CommitOrder) : (s.reportTooLate o).se = s.se := by
  unfold State.reportTooLate
  split
  · rfl
  · exact send_se _ _

@[simp] theorem reportFailed_se (s : State) (o : CommitOrder) (item : Item) : (s.reportFailed o item).se = s.se := by
  unfold State.reportFailed
  split
  · rfl
  · exact send_se _ _

/-- The commit record is no table and no record. -/
theorem seMoves_setCommit (s : State) (c : Commit) : SeMoves s (s.setCommit c) :=
  seMoves_single (.elsewhere rfl rfl rfl)

theorem seMoves_startCommit (s : State) (o : CommitOrder) : SeMoves s (s.startCommit o) := by
  unfold State.startCommit
  split_ifs
  · exact seMoves_of_eq (complete_se _ _ _)
  · exact seMoves_of_eq (complete_se _ _ _)
  · exact seMoves_of_eq ((complete_se _ _ _).trans (reportTooLate_se s o))
  · exact (seMoves_setCommit s _).congr rfl

theorem seMoves_finishValidation (s : State) (o : CommitOrder) : SeMoves s (s.finishValidation o) := by
  unfold State.finishValidation
  split
  · exact (seMoves_setCommit s .none).congr ((complete_se _ _ _).trans (reportFailed_se _ _ _))
  · split
    · exact (seMoves_setCommit s .none).congr ((complete_se _ _ _).trans (reportTooLate_se _ _))
    · exact (seMoves_setCommit s _).congr (complete_se _ _ _)

theorem seMoves_dropCommit (s : State) : SeMoves s s.dropCommit := by
  unfold State.dropCommit
  split
  · exact seMoves_single (.elsewhere rfl rfl rfl)
  · exact seMoves_of_eq rfl
  · exact seMoves_of_eq rfl

@[simp] theorem replyDropped_se (s : State) : s.replyDropped.se = s.se := by
  unfold State.replyDropped
  split
  · exact complete_se _ _ _
  · rfl

theorem seMoves_resumeStep (s : State) (g : ResumeStep) : SeMoves s (s.resumeStep g) := by
  cases g with
  | records => exact seMoves_single .clearRecords
  | mode => exact seMoves_of_eq rfl
  | reply => exact seMoves_of_eq (complete_se _ _ _)

theorem seMoves_resetStep (s : State) (level : ResetLevel) (g : ResetStep) : SeMoves s (s.resetStep level g) := by
  cases g with
  | se => exact seMoves_single .reset
  | iq => cases level <;> exact seMoves_of_eq rfl
  | rpu => cases level <;> exact seMoves_of_eq (by simp [State.resetStep])
  | mu => cases level <;> exact seMoves_of_eq (by simp [State.resetStep])
  | reply => exact seMoves_of_eq (complete_se _ _ _)

/-- The evaluation of a frame: the swap that is due, the axis updates, and the tracks (R48, R117). -/
theorem seMoves_evaluate (s : State) (f : Frame) : SeMoves s (s.evaluate f) := by
  have hswap : Relation.ReflTransGen SeMove s.se (swapped s.se f) := by
    unfold swapped
    split
    · exact .single .swap
    · exact .refl
  obtain ⟨mu, onWay, lag, n, h⟩ := evaluate_eq s f
  rw [h]
  exact (hswap.tail (.sample f)).tail (.elsewhere rfl rfl rfl)

/-! ### Every row -/

/-- Every row is a run of moves of the SE. -/
theorem seMoves_of_exec {c : Instr} {s t : State} (ht : exec c s = .next t) : SeMoves s t := by
  cases c with
  | resetPinAsserted => cases ht; exact seMoves_single .reset
  | resetPinReleased => cases ht; exact seMoves_of_eq rfl
  | lineAcquired port =>
    rcases execLineAcquired_cases ht with rfl | ⟨-, -, rfl | rfl⟩ <;> exact seMoves_of_eq (by simp)
  | lineLost port => rcases execLineLost_cases ht with rfl | ⟨-, rfl⟩ <;> exact seMoves_of_eq (by simp)
  | rxAbort cause => rcases execRxAbort_cases ht with rfl | ⟨-, r, rfl⟩ <;> exact seMoves_of_eq (by simp)
  | receiveSample f => exact seMoves_of_eq (se_receiveSample ht)
  | receiveDamaged f => exact seMoves_of_eq (se_receiveDamaged ht)
  | receiveCommand f => exact seMoves_of_eq (se_receiveCommand ht)
  | receiveReply f => exact seMoves_of_eq (se_receiveReply ht)
  | receiveEnumerate f => exact seMoves_of_eq (se_receiveEnumerate ht)
  | receiveForeign f => exact seMoves_of_eq (se_receiveForeign ht)
  | sampleEvaluation =>
    rcases execSampleEvaluation_cases ht with rfl | ⟨-, f, _, -, -, rfl⟩
    · exact seMoves_of_eq rfl
    · exact seMoves_evaluate s f
  | lostSample =>
    rcases execLostSample_cases ht with rfl | ⟨-, rest, -, rfl⟩
    · exact seMoves_of_eq rfl
    · exact SeMoves.congr (u := { s with se := { s.se with axisRecords := tabulate 16 s.se.announcedAxis } })
        (seMoves_single .lost) (by simp [State.takeLost])
  | sendForwardBegin => rcases execSendForwardBegin_cases ht with rfl | ⟨-, -, -, rfl⟩ <;> exact seMoves_of_eq rfl
  | sendReplyBegin => rcases execSendReplyBegin_cases ht with rfl | ⟨-, r, rest, -, rfl⟩ <;> exact seMoves_of_eq rfl
  | frameForwarded =>
    rcases execFrameForwarded_cases ht with rfl | ⟨-, -, rfl⟩ <;> exact seMoves_of_eq (by simp)
  | replySent => rcases execReplySent_cases ht with rfl | ⟨-, rfl⟩ <;> exact seMoves_of_eq (by simp)
  | outDiscard => rcases execOutDiscard_cases ht with rfl | ⟨-, -, -, rfl⟩ <;> exact seMoves_of_eq (by simp)
  | replyExpired position =>
    rcases execReplyExpired_cases ht with rfl | ⟨-, r, l, -, rfl⟩ <;> exact seMoves_of_eq (by simp)
  | identify => cases ht; exact seMoves_beginsIf_of_eq _ _ (by simp)
  | readStatus => cases ht; exact seMoves_beginsIf_of_eq _ _ (by simp)
  | defineAxis =>
    cases ht
    exact seMoves_beginsIf _ _ (fun e ha hr =>
      seMoves_edit _ _ (.defineAxis _ _ (axisDefOk_of_refusal (of_decide_eq_true ha) hr)))
  | clearAxis => cases ht; exact seMoves_beginsIf _ _ (fun _ _ _ => seMoves_edit _ _ (.clearAxis _))
  | defineTrack => cases ht; exact seMoves_beginsIf _ _ (fun _ _ _ => seMoves_edit _ _ (.defineTrack _ _))
  | clearTrack => cases ht; exact seMoves_beginsIf _ _ (fun _ _ _ => seMoves_edit _ _ (.clearTrack _))
  | loadWindows => cases ht; exact seMoves_beginsIf _ _ (fun e _ _ => seMoves_loadWindows s e)
  | stageCopy => cases ht; exact seMoves_beginsIf _ _ (fun _ _ _ => seMoves_startStaged s _ _)
  | stageClear => cases ht; exact seMoves_beginsIf _ _ (fun _ _ _ => seMoves_startStaged s _ _)
  | defineStatusSlot => cases ht; exact seMoves_beginsIf _ _ (fun _ _ _ => seMoves_edit _ _ (.statusSlot _))
  | commit => cases ht; exact seMoves_beginsIf _ _ (fun _ _ _ => seMoves_startCommit s _)
  | cancelCommit =>
    cases ht
    refine seMoves_beginsIf _ _ (fun _ _ _ => ?_)
    split
    · exact (seMoves_setCommit s .none).congr (complete_se _ _ _)
    · exact seMoves_of_eq (complete_se _ _ _)
    · exact seMoves_of_eq (complete_se _ _ _)
  | readAxis => cases ht; exact seMoves_beginsIf_of_eq _ _ (by simp)
  | readTrack => cases ht; exact seMoves_beginsIf_of_eq _ _ (by simp)
  | readWindows =>
    cases ht
    refine seMoves_beginsIf_of_eq _ _ (fun e => ?_)
    simp only
    split <;> exact complete_se _ _ _
  | readPool => cases ht; exact seMoves_beginsIf_of_eq _ _ (by simp)
  | readFault => cases ht; exact seMoves_beginsIf_of_eq _ _ (by simp)
  | clearFault => cases ht; exact seMoves_beginsIf_of_eq _ _ (by simp)
  | readCounters =>
    cases ht
    refine seMoves_beginsIf_of_eq _ _ (fun e => ?_)
    split <;> simp
  | setAttentionMask => cases ht; exact seMoves_beginsIf_of_eq _ _ (by simp)
  | ackAttention => cases ht; exact seMoves_beginsIf_of_eq _ _ (by simp)
  | setReplyLifetime => cases ht; exact seMoves_beginsIf_of_eq _ _ (by simp)
  | bypass =>
    cases ht
    refine seMoves_beginsIf_of_eq _ _ (fun e => ?_)
    split <;> simp
  | resume =>
    cases ht
    refine seMoves_beginsIf_of_eq _ _ (fun e => ?_)
    split <;> simp
  | releaseAddress =>
    rcases execReleaseAddress_cases ht with ⟨-, -, rfl⟩ | rfl
    · exact seMoves_of_eq rfl
    · refine seMoves_beginsIf_of_eq _ _ (fun e => ?_)
      split <;> simp [State.replyReleasing]
  | resetTables => cases ht; exact seMoves_beginsIf_of_eq _ _ (by simp)
  | resetAll => cases ht; exact seMoves_beginsIf_of_eq _ _ (by simp)
  | unknownCommand => cases ht; exact seMoves_beginsIf_of_eq _ _ (fun _ => rfl)
  | validationComplete =>
    rcases execValidationComplete_cases ht with rfl | ⟨-, -, o, -, rfl⟩
    · exact seMoves_of_eq rfl
    · exact seMoves_finishValidation s o
  | copyComplete =>
    rcases execCopyComplete_cases ht with rfl | ⟨-, -, rfl⟩
    · exact seMoves_of_eq rfl
    · exact seMoves_endStaged .copy _
  | clearComplete =>
    rcases execClearComplete_cases ht with rfl | ⟨-, -, rfl⟩
    · exact seMoves_of_eq rfl
    · exact seMoves_endStaged .clear _
  | commitDrop =>
    rcases execCommitDrop_cases ht with rfl | ⟨-, ⟨-, rfl | rfl⟩ | ⟨-, rfl⟩⟩
    · exact seMoves_of_eq rfl
    · exact seMoves_dropCommit s.nextPause
    · exact SeMoves.congr (seMoves_dropCommit s.nextPause) (replyDropped_se _)
    · exact seMoves_of_eq (replyDropped_se s)
  | dynamicRecordClear last =>
    rcases execDynamicRecordClear_cases ht with rfl | ⟨-, next, -, rfl⟩
    · exact seMoves_of_eq rfl
    · exact List.foldlRecOn (motive := SeMoves s) _ _ (seMoves_of_eq rfl)
        (fun u hu g _ => hu.trans (seMoves_resumeStep u g))
  | seTableReset last =>
    rcases execSeTableReset_cases ht with rfl | ⟨-, level, next, -, rfl⟩
    · exact seMoves_of_eq rfl
    · exact List.foldlRecOn (motive := SeMoves s) _ _ (seMoves_of_eq rfl)
        (fun u hu g _ => hu.trans (seMoves_resetStep u level g))

/-- While no command waits the SE does nothing (log entry 3). -/
theorem idle_se (s : State) : s.idle.se = s.se := by
  rcases pass_cases s.deliver with ⟨r, p, l, h⟩ | h <;> rw [State.idle, h] <;> exact deliver_se s

/-- Every step is a run of moves of the SE. -/
theorem seMoves_of_step {s t : State} (ht : step s = .next t) : SeMoves s t := by
  cases hp : s.pending with
  | nil =>
    rw [step, hp] at ht
    cases ht
    exact seMoves_of_eq (idle_se s)
  | cons c rest =>
    rw [step, hp] at ht
    exact seMoves_of_exec (s := { s with pending := rest }) ht

/-- A law of the SE that every move keeps is kept by every step. -/
theorem seLaw_of_step {P : Se → Prop} (hP : ∀ e e', SeMove e e' → P e → P e') {s t : State} (h : P s.se)
    (ht : step s = .next t) : P t.se := by
  have kept {e e' : Se} (hm : Relation.ReflTransGen SeMove e e') (he : P e) : P e' := by
    induction hm with
    | refl => exact he
    | tail _ hmove ih => exact hP _ _ hmove ih
  exact kept (seMoves_of_step ht) h

end Sys2Proof.Proofs

/-!
PROOFS. The laws of the tables and the axis records: every move of the SE keeps them, so every step does.
-/
namespace Sys2Proof.Proofs

open Sys2Proof.Machine Sys2Proof.Claims

/-! ### The axis records after a move, index by index -/

theorem updateAxes_axisRecords (e : Se) (f : Frame) (i : Fin 16) :
    (e.updateAxes f).axisRecords[i] = e.updatedAxis f i := by
  simp [Se.updateAxes]

theorem announced_axisRecords (e : Se) (i : Fin 16) :
    ({ e with axisRecords := tabulate 16 e.announcedAxis } : Se).axisRecords[i] = e.announcedAxis i := by
  simp

theorem swap_axisRecords (e : Se) (i : Fin 16) :
    e.swap.axisRecords[i] = swappedAxis e.active.axes[i] e.staged.axes[i] e.axisRecords[i] := by
  simp [Se.swap]

theorem clearRecords_axisRecords (e : Se) (i : Fin 16) :
    e.clearRecords.axisRecords[i] = .cleared (if e.active.axes[i].isSome then .waiting else .unbound) := by
  simp [Se.clearRecords]

/-- An axis with a definition takes the sample of a frame unless it is UNBOUND (R47, R48). -/
theorem updatedAxis_of_some {e : Se} {i : Fin 16} {d : AxisDef} (h : e.active.axes[i] = some d)
    (hs : e.axisRecords[i].state ≠ .unbound) (f : Frame) : e.updatedAxis f i = d.updated f e.axisRecords[i] := by
  simp only [Se.updatedAxis, h, hs, if_false]

/-- An axis without a definition, or UNBOUND, keeps its record (R47, R48). -/
theorem updatedAxis_of_unbound {e : Se} {i : Fin 16}
    (h : e.active.axes[i] = none ∨ e.axisRecords[i].state = .unbound) (f : Frame) :
    e.updatedAxis f i = e.axisRecords[i] := by
  unfold Se.updatedAxis
  rcases h with h | h
  · simp only [h]
  · split
    · rfl
    · exact if_pos h

/-- An axis with a definition takes an announcement as a miss (R48). -/
theorem announcedAxis_of_some {e : Se} {i : Fin 16} {d : AxisDef} (h : e.active.axes[i] = some d) :
    e.announcedAxis i = d.onMiss e.axisRecords[i] := by
  simp only [Se.announcedAxis, h]

theorem announcedAxis_of_none {e : Se} {i : Fin 16} (h : e.active.axes[i] = none) :
    e.announcedAxis i = e.axisRecords[i] := by
  simp only [Se.announcedAxis, h]

/-! ### The binding of axes (R47) -/

/-- An axis with this definition, or without one, is UNBOUND exactly without one, and its record is then cleared. -/
def Bound (d : Option AxisDef) (r : AxisRecord) : Prop :=
  (r.state = .unbound ↔ d = none) ∧ (r.state = .unbound → r = .cleared .unbound)

/-- The law of binding, of the SE alone. -/
def SeBinding (e : Se) : Prop := ∀ i : Fin 16, Bound e.active.axes[i] e.axisRecords[i]

theorem bound_none_iff (r : AxisRecord) : Bound none r ↔ r = .cleared .unbound := by
  refine ⟨fun h => h.2 (h.1.mpr rfl), ?_⟩
  rintro rfl
  exact ⟨iff_of_true rfl rfl, fun _ => rfl⟩

theorem bound_some_iff (d : AxisDef) (r : AxisRecord) : Bound (some d) r ↔ r.state ≠ .unbound := by
  refine ⟨fun h hs => ?_, fun h => ⟨iff_of_false h nofun, fun hs => absurd hs h⟩⟩
  cases h.1.mp hs

/-- A good sample leaves an axis bound. -/
theorem onGood_ne_unbound {r : AxisRecord} (h : r.state ≠ .unbound) (d : AxisDef) (c : Half) (x : Int) :
    (d.onGood c x r).state ≠ .unbound := by
  unfold AxisDef.onGood
  cases hs : r.state with
  | unbound => exact absurd hs h
  | waiting | lost | coasting => nofun
  | acquiring | tracking =>
    simp only
    split <;> nofun

/-- A miss leaves an axis bound. -/
theorem onMiss_ne_unbound {r : AxisRecord} (h : r.state ≠ .unbound) (d : AxisDef) :
    (d.onMiss r).state ≠ .unbound := by
  unfold AxisDef.onMiss
  cases hs : r.state with
  | unbound | waiting | lost => exact h
  | acquiring | tracking | coasting =>
    simp only
    split <;> nofun

theorem onFrameMiss_ne_unbound {r : AxisRecord} (h : r.state ≠ .unbound) (d : AxisDef) :
    (d.onFrameMiss r).state ≠ .unbound := by
  by_cases hl : r.state = .lost
  · rw [onFrameMiss_of_lost hl]
    exact h
  · rw [onFrameMiss_of_not_lost hl]
    exact onMiss_ne_unbound h d

/-- A frame leaves an axis bound, whatever its sample. -/
theorem updated_ne_unbound {r : AxisRecord} (h : r.state ≠ .unbound) (d : AxisDef) (f : Frame) :
    (d.updated f r).state ≠ .unbound := by
  by_cases hx : ∃ x, d.sample f r = .good x
  · obtain ⟨x, hx⟩ := hx
    rw [updated_of_good hx]
    exact onGood_ne_unbound h d _ x
  · rw [updated_of_miss (not_exists.mp hx)]
    exact onFrameMiss_ne_unbound h d

theorem bound_updatedAxis {e : Se} (h : SeBinding e) (f : Frame) (i : Fin 16) :
    Bound e.active.axes[i] (e.updatedAxis f i) := by
  have hi := h i
  cases hd : e.active.axes[i] with
  | none => rwa [updatedAxis_of_unbound (.inl hd), ← hd]
  | some d =>
    rw [hd, bound_some_iff] at hi
    rw [updatedAxis_of_some hd hi, bound_some_iff]
    exact updated_ne_unbound hi d f

theorem bound_announcedAxis {e : Se} (h : SeBinding e) (i : Fin 16) : Bound e.active.axes[i] (e.announcedAxis i) := by
  have hi := h i
  cases hd : e.active.axes[i] with
  | none => rwa [announcedAxis_of_none hd, ← hd]
  | some d =>
    rw [hd, bound_some_iff] at hi
    rw [announcedAxis_of_some hd, bound_some_iff]
    exact onMiss_ne_unbound hi d

/-- After a swap an axis is bound as the bank that enters the ACTIVE role defines it (R114, R115). -/
theorem bound_swappedAxis {old : Option AxisDef} {r : AxisRecord} (h : Bound old r) (new : Option AxisDef) :
    Bound new (swappedAxis old new r) := by
  cases new with
  | none => exact (bound_none_iff _).mpr (by unfold swappedAxis; cases old <;> rfl)
  | some n =>
    rw [bound_some_iff]
    cases old with
    | none => nofun
    | some o =>
      rw [bound_some_iff] at h
      simp only [swappedAxis]
      split_ifs
      · nofun
      · exact h
      · nofun

theorem bound_cleared (d : Option AxisDef) : Bound d (.cleared (if d.isSome then .waiting else .unbound)) := by
  cases d with
  | none => exact (bound_none_iff _).mpr rfl
  | some d => exact (bound_some_iff d _).mpr nofun

/-- The law depends on the ACTIVE bank's definitions and the axis records alone. -/
theorem seBinding_of_same {e e' : Se} (h : SeBinding e) (ha : e'.active = e.active)
    (hr : e'.axisRecords = e.axisRecords) : SeBinding e' := by
  unfold SeBinding
  rw [ha, hr]
  exact h

theorem seBinding_of_move {e e' : Se} (hm : SeMove e e') (h : SeBinding e) : SeBinding e' := by
  cases hm with
  | elsewhere ha _ hr => exact seBinding_of_same h ha hr
  | edit | copy | clear => exact seBinding_of_same h (withStaged_active _ _) (withStaged_axisRecords _ _)
  | swap =>
    intro i
    rw [swap_axisRecords]
    exact bound_swappedAxis (h i) _
  | sample f =>
    intro i
    rw [updateAxes_axisRecords]
    exact bound_updatedAxis h f i
  | lost =>
    intro i
    rw [announced_axisRecords]
    exact bound_announcedAxis h i
  | clearRecords =>
    intro i
    rw [clearRecords_axisRecords]
    exact bound_cleared _
  | reset => exact reset_binding

/-- Settles O56: every move of the SE binds the axes as the ACTIVE bank defines them. -/
theorem everyStepKeepsTheBinding : Obligations.EveryStepKeepsTheBinding :=
  fun _ _ => seLaw_of_step (P := SeBinding) (fun _ _ => seBinding_of_move)

/-! ### Laws of both banks -/

/-- What holds of both banks holds of the ACTIVE and of the STAGED one, and conversely (R96). -/
theorem banks_iff_roles (P : Bank → Prop) (e : Se) : P e.bankA ∧ P e.bankB ↔ P e.active ∧ P e.staged := by
  unfold Se.active Se.staged Se.bank
  cases e.selector
  · rfl
  · exact and_comm

/-- A law of a bank that holds of an empty one and that every edit keeps is kept for both banks. -/
theorem banks_of_move {P : Bank → Prop} (hempty : P .empty) (hedit : ∀ b b', BankEdit b b' → P b → P b') {e e' : Se}
    (hm : SeMove e e') (h : P e.active ∧ P e.staged) : P e'.active ∧ P e'.staged := by
  obtain ⟨hactive, hstaged⟩ := h
  cases hm with
  | elsewhere ha hs _ =>
    rw [ha, hs]
    exact ⟨hactive, hstaged⟩
  | edit hb =>
    rw [withStaged_active, withStaged_staged]
    exact ⟨hactive, hedit _ _ hb hstaged⟩
  | copy =>
    rw [withStaged_active, withStaged_staged]
    exact ⟨hactive, hactive⟩
  | clear =>
    rw [withStaged_active, withStaged_staged]
    exact ⟨hactive, hempty⟩
  | swap =>
    rw [swap_active, swap_staged]
    exact ⟨hstaged, hactive⟩
  | sample | lost | clearRecords => exact ⟨hactive, hstaged⟩
  | reset => exact ⟨hempty, hempty⟩

/-! ### The window pools (R71, R72) -/

/-- The sum of a list of numbers with one of them replaced. -/
theorem sum_set_add (l : List Nat) (n a : Nat) (h : n < l.length) : (l.set n a).sum + l[n] = l.sum + a := by
  have hself : l.sum = (l.set n l[n]).sum := by rw [List.set_getElem_self]
  rw [hself, List.sum_set, List.sum_set, if_pos h, if_pos h]
  omega

/-- The windows of a bank's lists with one list replaced (R72). -/
theorem used_setLists (b : Bank) (t : Fin 32) (l : List Window) (free : Nat) :
    Bank.used { b with lists := b.lists.set t.val l, free := free } + b.lists[t].length = b.used + l.length := by
  have h := sum_set_add (b.lists.toList.map List.length) t.val l.length (by simp)
  simpa [Bank.used, Vector.toList_set, List.map_set] using h

/-- A bank's pool adds up once a list of up to 16 windows replaces another and the free count follows (R72). -/
theorem poolOk_setLists {b : Bank} (h : Safety.PoolOk b) (t : Fin 32) {l : List Window} {free : Nat}
    (hlen : l.length ≤ 16) (hfree : free + l.length = b.free + b.lists[t].length) :
    Safety.PoolOk { b with lists := b.lists.set t.val l, free := free } := by
  obtain ⟨hlists, hsum⟩ := h
  refine ⟨fun u => ?_, ?_⟩
  · show (b.lists.set t.val l)[u.val].length ≤ 16
    rw [Vector.getElem_set]
    split
    · exact hlen
    · exact hlists u
  · have hused := used_setLists b t l free
    show Bank.used { b with lists := b.lists.set t.val l, free := free } + free = 256
    omega

theorem poolOk_of_edit {b b' : Bank} (hb : BankEdit b b') (h : Safety.PoolOk b) : Safety.PoolOk b' := by
  cases hb with
  | defineAxis | clearAxis | defineTrack | statusSlot => exact h
  | clearTrack t => exact poolOk_setLists h t (Nat.zero_le _) rfl
  | loadWindows t l hlen hroom => exact poolOk_setLists h t hlen (Nat.sub_add_cancel hroom)

/-- The law of the pools, of the SE alone. -/
def SePools (e : Se) : Prop := Safety.PoolOk e.active ∧ Safety.PoolOk e.staged

theorem pools_iff (s : State) : Safety.Pools s ↔ SePools s.se := banks_iff_roles Safety.PoolOk s.se

theorem sePools_of_move {e e' : Se} (hm : SeMove e e') (h : SePools e) : SePools e' :=
  banks_of_move poolOk_empty (fun _ _ => poolOk_of_edit) hm h

/-! ### The ranges of definitions and records (R44, R46) -/

theorem axisDefsOk_setAxis {b : Bank} (h : Safety.AxisDefsOk b) (i : Fin 16) {d : Option AxisDef}
    (hd : ∀ x, d = some x → Safety.AxisDefOk x) : Safety.AxisDefsOk (b.setAxis i d) := by
  intro j x hx
  have hx : (b.axes.set i.val d)[j.val] = some x := hx
  rw [Vector.getElem_set] at hx
  split at hx
  · exact hd x hx
  · exact h j x hx

theorem axisDefsOk_of_edit {b b' : Bank} (hb : BankEdit b b') (h : Safety.AxisDefsOk b) : Safety.AxisDefsOk b' := by
  cases hb with
  | defineAxis i d hd => exact axisDefsOk_setAxis h i (fun x hx => Option.some.inj hx ▸ hd)
  | clearAxis i => exact axisDefsOk_setAxis h i nofun
  | defineTrack | clearTrack | loadWindows | statusSlot => exact h

/-- A position lies in the range of its axis's kind (R46). -/
def PositionOk (d : AxisDef) (p : Int) : Prop :=
  (d.kind = .linear → -2147483648 ≤ p ∧ p ≤ 2147483647) ∧ (d.kind = .rotary → 0 ≤ p ∧ p < (d.modulus : Int))

/-- A velocity lies in the range of R46. -/
def VelocityOk (v : Int) : Prop := -1073741824 ≤ v ∧ v ≤ 1073741824

theorem velocityOk_zero : VelocityOk 0 := by
  unfold VelocityOk
  decide

theorem recordOk_iff (d : AxisDef) (r : AxisRecord) :
    Safety.RecordOk d r ↔ PositionOk d r.position ∧ VelocityOk r.velocity := by
  simp only [Safety.RecordOk, PositionOk, VelocityOk, and_assoc]

/-- The modulus of a ROTARY axis is positive (R44). -/
theorem one_le_modulus {d : AxisDef} (h : Safety.AxisDefOk d) (hk : d.kind = .rotary) : 1 ≤ d.modulus := by
  obtain ⟨-, hmodulus, -⟩ := h
  have := hmodulus hk
  omega

/-- A sum brought into the range of its kind is a position (R62). -/
theorem positionOk_reduce {d : AxisDef} (h : Safety.AxisDefOk d) (x : Int) : PositionOk d (d.reduce x) := by
  refine ⟨fun hk => ?_, fun hk => ?_⟩
  · rw [reduce_of_linear hk]
    omega
  · obtain ⟨hlow, hhigh, -⟩ := reduce_rotary_spec hk (one_le_modulus h hk) x
    exact ⟨hlow, hhigh⟩

/-- A candidate is a position (R10, R49). -/
theorem positionOk_of_candidate {d : AxisDef} {w : Word} {x : Int} (h : Candidate d w x) : PositionOk d x := by
  rcases h with ⟨hk, rfl⟩ | ⟨hk, hlt, rfl⟩
  · have hlow := BitVec.le_toInt w
    have hhigh := BitVec.toInt_lt (x := w)
    exact ⟨fun _ => by omega, fun hr => by simp [hk] at hr⟩
  · exact ⟨fun hl => by simp [hk] at hl, fun _ => by omega⟩

/-- A step within the greatest step of the definition is a velocity (R44, R52). -/
theorem velocityOk_of_le_maxStep {d : AxisDef} (h : Safety.AxisDefOk d) {v : Int} (hv : v.natAbs ≤ d.maxStep) :
    VelocityOk v := by
  obtain ⟨-, -, -, -, hmax⟩ := h
  unfold VelocityOk
  omega

theorem recordOk_cleared {d : AxisDef} (h : Safety.AxisDefOk d) (a : AxisState) :
    Safety.RecordOk d (.cleared a) := by
  refine (recordOk_iff d _).mpr ⟨⟨fun _ => ?_, fun hk => ?_⟩, velocityOk_zero⟩
  · show -2147483648 ≤ (0 : Int) ∧ (0 : Int) ≤ 2147483647
    decide
  · have := one_le_modulus h hk
    show (0 : Int) ≤ 0 ∧ (0 : Int) < d.modulus
    omega

/-- A good sample sets the position, and keeps the velocity, clears it, or takes the checked delta (R54 to R58). -/
theorem onGood_position_velocity {r : AxisRecord} (hs : r.state ≠ .unbound) (d : AxisDef) (c : Half) (x : Int) :
    (d.onGood c x r).position = x ∧ ((d.onGood c x r).velocity = r.velocity ∨ (d.onGood c x r).velocity = 0
      ∨ (r.state.stepChecked = true ∧ (d.onGood c x r).velocity = d.delta r.position x)) := by
  cases h : r.state with
  | unbound => exact absurd h hs
  | waiting | lost =>
    rw [onGood_acquires (by simp [h])]
    exact ⟨rfl, .inr (.inl rfl)⟩
  | acquiring | tracking =>
    by_cases hc : r.lastGood = some (c - 1#16)
    · rw [onGood_consecutive (by simp [h]) hc]
      exact ⟨rfl, .inr (.inr ⟨rfl, rfl⟩)⟩
    · rw [onGood_not_consecutive (by simp [h]) hc]
      exact ⟨rfl, .inl rfl⟩
  | coasting =>
    rw [onGood_coasting h]
    exact ⟨rfl, .inl rfl⟩

theorem recordOk_onGood {d : AxisDef} {f : Frame} {r : AxisRecord} {x : Int} (hd : Safety.AxisDefOk d)
    (hs : r.state ≠ .unbound) (hx : d.sample f r = .good x) (h : Safety.RecordOk d r) (c : Half) :
    Safety.RecordOk d (d.onGood c x r) := by
  obtain ⟨⟨w, hw⟩, hstep⟩ := candidate_of_good hx
  obtain ⟨-, hvel⟩ := (recordOk_iff d r).mp h
  obtain ⟨hp, hv⟩ := onGood_position_velocity hs d c x
  rw [recordOk_iff, hp]
  refine ⟨positionOk_of_candidate hw, ?_⟩
  rcases hv with hv | hv | ⟨hchecked, hv⟩ <;> rw [hv]
  · exact hvel
  · exact velocityOk_zero
  · exact velocityOk_of_le_maxStep hd (hstep hchecked)

/-- A miss keeps the velocity, and the position or carries it forward (R59 to R62). -/
theorem onMiss_position_velocity (d : AxisDef) (r : AxisRecord) :
    (d.onMiss r).velocity = r.velocity
      ∧ ((d.onMiss r).position = r.position ∨ (d.onMiss r).position = d.reduce (r.position + r.velocity)) := by
  by_cases hc : Follows r.state
  · by_cases hstale : d.stale.toNat ≤ (byteUp r.missed).toNat
    · rw [onMiss_stale hc hstale]
      exact ⟨rfl, .inl rfl⟩
    · rcases hc with h | h
      · rw [onMiss_acquiring h (Nat.not_le.mp hstale)]
        exact ⟨rfl, .inl rfl⟩
      · rw [onMiss_carries h (Nat.not_le.mp hstale)]
        exact ⟨rfl, .inr rfl⟩
  · rw [onMiss_of_not_follows hc]
    exact ⟨rfl, .inl rfl⟩

theorem recordOk_onMiss {d : AxisDef} {r : AxisRecord} (hd : Safety.AxisDefOk d) (h : Safety.RecordOk d r) :
    Safety.RecordOk d (d.onMiss r) := by
  obtain ⟨hpos, hvel⟩ := (recordOk_iff d r).mp h
  obtain ⟨hv, hp⟩ := onMiss_position_velocity d r
  rw [recordOk_iff, hv]
  refine ⟨?_, hvel⟩
  rcases hp with hp | hp <;> rw [hp]
  · exact hpos
  · exact positionOk_reduce hd _

theorem recordOk_onFrameMiss {d : AxisDef} {r : AxisRecord} (hd : Safety.AxisDefOk d) (h : Safety.RecordOk d r) :
    Safety.RecordOk d (d.onFrameMiss r) := by
  by_cases hl : r.state = .lost
  · rw [onFrameMiss_of_lost hl]
    exact h
  · rw [onFrameMiss_of_not_lost hl]
    exact recordOk_onMiss hd h

theorem recordOk_updated {d : AxisDef} {r : AxisRecord} (f : Frame) (hd : Safety.AxisDefOk d)
    (hs : r.state ≠ .unbound) (h : Safety.RecordOk d r) : Safety.RecordOk d (d.updated f r) := by
  by_cases hx : ∃ x, d.sample f r = .good x
  · obtain ⟨x, hx⟩ := hx
    rw [updated_of_good hx]
    exact recordOk_onGood hd hs hx h _
  · rw [updated_of_miss (not_exists.mp hx)]
    exact recordOk_onFrameMiss hd h

/-- A record that a swap keeps is one of an axis of the same kind and modulus; every other is cleared (R114, R115). -/
theorem recordOk_swappedAxis {old : Option AxisDef} {n : AxisDef} {r : AxisRecord} (hn : Safety.AxisDefOk n)
    (h : ∀ o, old = some o → Safety.RecordOk o r) : Safety.RecordOk n (swappedAxis old (some n) r) := by
  cases old with
  | none => exact recordOk_cleared hn _
  | some o =>
    simp only [swappedAxis]
    split
    · next hcont =>
      obtain ⟨-, hkind, hmodulus⟩ := of_decide_eq_true hcont
      have hkept : Safety.RecordOk n r := by
        have hr := h o rfl
        unfold Safety.RecordOk at hr ⊢
        rwa [← hkind, ← hmodulus]
      split <;> exact hkept
    · exact recordOk_cleared hn _

/-- Every record is in range for the definition its axis has in a bank (R46). -/
def RecordsFit (b : Bank) (records : Vector AxisRecord 16) : Prop :=
  ∀ (i : Fin 16) (d : AxisDef), b.axes[i] = some d → Safety.RecordOk d records[i]

/-- The law of the ranges, of the SE alone. -/
def SeRecords (e : Se) : Prop :=
  (Safety.AxisDefsOk e.active ∧ Safety.AxisDefsOk e.staged) ∧ RecordsFit e.active e.axisRecords

theorem records_iff (s : State) : Safety.Records s ↔ SeRecords s.se := by
  rw [SeRecords, ← banks_iff_roles, and_assoc]
  rfl

theorem recordsFit_of_move {e e' : Se} (hm : SeMove e e') (h : SeRecords e) : RecordsFit e'.active e'.axisRecords := by
  obtain ⟨⟨hactive, hstaged⟩, hfit⟩ := h
  cases hm with
  | elsewhere ha _ hr => rwa [ha, hr]
  | edit | copy | clear => rwa [withStaged_active, withStaged_axisRecords]
  | swap =>
    intro i d hd
    rw [swap_active] at hd
    rw [swap_axisRecords, hd]
    exact recordOk_swappedAxis (hstaged i d hd) (hfit i)
  | sample f =>
    intro i d hd
    have hd : e.active.axes[i] = some d := hd
    rw [updateAxes_axisRecords]
    by_cases hs : e.axisRecords[i].state = .unbound
    · rw [updatedAxis_of_unbound (.inr hs)]
      exact hfit i d hd
    · rw [updatedAxis_of_some hd hs]
      exact recordOk_updated f (hactive i d hd) hs (hfit i d hd)
  | lost =>
    intro i d hd
    have hd : e.active.axes[i] = some d := hd
    rw [announced_axisRecords, announcedAxis_of_some hd]
    exact recordOk_onMiss (hactive i d hd) (hfit i d hd)
  | clearRecords =>
    intro i d hd
    rw [clearRecords_axisRecords]
    exact recordOk_cleared (hactive i d hd) _
  | reset =>
    intro i d hd
    cases (empty_axes i).symm.trans hd

theorem seRecords_of_move {e e' : Se} (hm : SeMove e e') (h : SeRecords e) : SeRecords e' :=
  ⟨banks_of_move axisDefsOk_empty (fun _ _ => axisDefsOk_of_edit) hm h.1, recordsFit_of_move hm h⟩

/-- Settles O57: every move of the SE keeps the pools, and every move keeps the definitions and records in range. -/
theorem everyStepKeepsTablesAndRecordsInRange : Obligations.EveryStepKeepsTablesAndRecordsInRange := by
  refine fun s t ht => ⟨fun h => ?_, fun h => ?_⟩
  · rw [pools_iff] at h ⊢
    exact seLaw_of_step (fun _ _ => sePools_of_move) h ht
  · rw [records_iff] at h ⊢
    exact seLaw_of_step (fun _ _ => seRecords_of_move) h ht

end Sys2Proof.Proofs

/-!
PROOFS. The reads of tables and records, and the edits of axes and of the status slot.
-/
namespace Sys2Proof.Proofs

open Sys2Proof.Machine Sys2Proof.Claims

/-! ### Argument words (R13, R135) -/

/-- A number of 32 bits is read back from its word. -/
theorem numWord_toNat {n : Nat} (h : n < 4294967296) : (numWord n).toNat = n := by
  rw [numWord, BitVec.toNat_ofNat]
  exact Nat.mod_eq_of_lt h

/-- The word of a flag. -/
theorem flagWord_eq (b : Bool) : flagWord b = if b then 1#32 else 0#32 := by
  cases b <;> rfl

theorem flag_toNat (b : Bool) : (if b then 1#32 else 0#32).toNat = if b then 1 else 0 := by
  cases b <;> rfl

/-- An argument word lies within a range. -/
def Within (w : Word) (r : Nat × Nat) : Prop := r.1 ≤ w.toNat ∧ w.toNat ≤ r.2

/-- Words that lie within ranges place by place. -/
theorem within_of_forall₂ {args : List Word} {ranges : List (Nat × Nat)} (h : List.Forall₂ Within args ranges) {j : Nat}
    {w : Word} {r : Nat × Nat} (hw : args[j]? = some w) (hr : ranges[j]? = some r) : Within w r := by
  induction h generalizing j with
  | nil => cases hw
  | cons hfirst _ ih =>
    cases j with
    | zero =>
      obtain rfl := Option.some.inj hw
      obtain rfl := Option.some.inj hr
      exact hfirst
    | succ j => exact ih hw hr

/-- Every argument word is in range when each lies within the range at its place. -/
theorem inRange_of_forall₂ {code : Byte} {args : List Word} (h : List.Forall₂ Within args (rangesOf code args))
    (j : Nat) : InRange code args j :=
  fun _ _ hw hr => within_of_forall₂ h hw hr

/-- The argument words of a command that carries them, as numbers. -/
theorem num_of_carries {e : CommandEntry} {code : Byte} {args : List Word} (h : Carries e code args) (j : Nat) :
    e.num j = (args.getD j 0#32).toNat := by
  obtain ⟨-, -, rfl⟩ := h
  rfl

theorem axisIndex_of_num {e : CommandEntry} {i : Fin 16} {j : Nat} (h : e.num j = i.val) : e.axisIndex j = i := by
  rw [CommandEntry.axisIndex, h]
  exact Fin.ext (Nat.mod_eq_of_lt i.isLt)

theorem trackIndex_of_num {e : CommandEntry} {t : Fin 32} {j : Nat} (h : e.num j = t.val) : e.trackIndex j = t := by
  rw [CommandEntry.trackIndex, h]
  exact Fin.ext (Nat.mod_eq_of_lt t.isLt)

theorem numWord_axis (i : Fin 16) : (numWord i.val).toNat = i.val := numWord_toNat (by omega)

theorem numWord_track (t : Fin 32) : (numWord t.val).toNat = t.val := numWord_toNat (by omega)

/-! ### READ_AXIS, READ_TRACK, READ_WINDOWS and READ_POOL (R158 to R161) -/

/-- A command that only answers completes in the state it finds (R134, R136). -/
theorem begins_answers {s : State} {e : CommandEntry} {rest : List CommandEntry} {c : Command} {args : List Word}
    (hb : Begins s e rest) (hc : Carries e (codeOf c) args) (hcount : args.length ∈ countsOf (codeOf c))
    (hrange : List.Forall₂ Within args (rangesOf (codeOf c) args)) (words : CommandEntry → List Word) :
    s.begins c (fun e => s.complete .ok (words e)) = finished s e rest .ok (words e) := by
  have ⟨_, hq, _⟩ := hb
  exact (begins_of_carries hb hc hcount (inRange_of_forall₂ hrange) _).trans (complete_eq_finished hq _ _)

theorem within_axis (i : Fin 16) : Within (numWord i.val) (0, 15) := by
  rw [Within, numWord_axis]
  exact ⟨Nat.zero_le _, Nat.le_of_lt_succ i.isLt⟩

theorem within_track (t : Fin 32) : Within (numWord t.val) (0, 31) := by
  rw [Within, numWord_track]
  exact ⟨Nat.zero_le _, Nat.le_of_lt_succ t.isLt⟩

theorem within_flag (b : Bool) : Within (if b then 1#32 else 0#32) (0, 1) := by
  cases b <;> exact ⟨by decide, by decide⟩

/-- The bank named by a role flag (R13). -/
theorem bankByRole_eq (s : State) (staged : Bool) :
    s.bankByRole (if staged then 1 else 0) = if staged then s.se.staged else s.se.active := by
  cases staged <;> rfl

/-- READ_AXIS answers the words of the axis it names (R158). -/
theorem exec_readAxis {s : State} {e : CommandEntry} {rest : List CommandEntry} {i : Fin 16} (hb : Begins s e rest)
    (hc : Carries e 0x30#8 [numWord i.val]) :
    exec .readAxis s = .next (finished s e rest .ok (s.axisWords i)) := by
  have hi : e.axisIndex 0 = i := axisIndex_of_num ((num_of_carries hc 0).trans (numWord_axis i))
  refine congrArg _ ((begins_answers (c := .readAxis) hb hc (by simp [countsOf, codeOf])
    (.cons (within_axis i) .nil) (fun e => s.axisWords (e.axisIndex 0))).trans ?_)
  rw [hi]

/-- READ_TRACK answers the words of the track it names, from the bank it names by role (R159). -/
theorem exec_readTrack {s : State} {e : CommandEntry} {rest : List CommandEntry} {t : Fin 32} {staged : Bool}
    (hb : Begins s e rest) (hc : Carries e 0x31#8 [numWord t.val, if staged then 1#32 else 0#32]) :
    exec .readTrack s
      = .next (finished s e rest .ok (s.trackWords t (if staged then s.se.staged else s.se.active))) := by
  have ht : e.trackIndex 0 = t := trackIndex_of_num ((num_of_carries hc 0).trans (numWord_track t))
  have hrole : e.num 1 = if staged then 1 else 0 := (num_of_carries hc 1).trans (flag_toNat staged)
  refine congrArg _ ((begins_answers (c := .readTrack) hb hc (by simp [countsOf, codeOf])
    (.cons (within_track t) (.cons (within_flag staged) .nil))
    (fun e => s.trackWords (e.trackIndex 0) (s.bankByRole (e.num 1)))).trans ?_)
  rw [ht, hrole, bankByRole_eq]

/-- READ_WINDOWS answers the windows from the start, or refuses a start beyond the list's end (R160, R77). -/
theorem exec_readWindows {s : State} {e : CommandEntry} {rest : List CommandEntry} {t : Fin 32} {staged : Bool}
    {start count : Nat} (hb : Begins s e rest) (hstart : start ≤ 16) (hlow : 1 ≤ count) (hhigh : count ≤ 16)
    (hc : Carries e 0x32#8 [numWord t.val, if staged then 1#32 else 0#32, numWord start, numWord count])
    {l : List Window} (hl : l = (if staged then s.se.staged else s.se.active).lists[t]) :
    exec .readWindows s = .next (if l.length < start then finished s e rest .badArgument [2#32]
      else finished s e rest .ok (windowWords ((l.drop start).take count))) := by
  have hfirst : (numWord start).toNat = start := numWord_toNat (by omega)
  have hcount : (numWord count).toNat = count := numWord_toNat (by omega)
  have ht : e.trackIndex 0 = t := trackIndex_of_num ((num_of_carries hc 0).trans (numWord_track t))
  have hrole : e.num 1 = if staged then 1 else 0 := (num_of_carries hc 1).trans (flag_toNat staged)
  have hnum2 : e.num 2 = start := (num_of_carries hc 2).trans hfirst
  have hnum3 : e.num 3 = count := (num_of_carries hc 3).trans hcount
  have hwithin : Within (numWord start) (0, 16) := ⟨Nat.zero_le _, hfirst.trans_le hstart⟩
  have hwithin' : Within (numWord count) (1, 16) := ⟨hlow.trans_eq hcount.symm, hcount.trans_le hhigh⟩
  have ⟨_, hq, _⟩ := hb
  refine congrArg _ ((begins_of_carries (c := .readWindows) hb hc (by simp [countsOf, codeOf]) (inRange_of_forall₂
    (.cons (within_track t) (.cons (within_flag staged) (.cons hwithin (.cons hwithin' .nil))))) _).trans ?_)
  simp only [ht, hrole, hnum2, hnum3, bankByRole_eq, ← hl, complete_eq_finished hq]

/-- READ_POOL answers its six words (R161). -/
theorem exec_readPool {s : State} {e : CommandEntry} {rest : List CommandEntry} (hb : Begins s e rest)
    (hc : Carries e 0x33#8 []) : exec .readPool s = .next (finished s e rest .ok s.poolWords) :=
  congrArg _ (begins_answers (c := .readPool) hb hc (by decide) .nil (fun _ => s.poolWords))

/-- Settles O25: each read by its words, field by field. -/
theorem readsReturnTablesAndRecords : Obligations.ReadsReturnTablesAndRecords := by
  refine ⟨fun s e rest i r hb hc hr => ?_, fun s e rest t staged b hb hc hbank => ?_,
    fun s e rest t staged start count l hb hstart hlow hhigh hc hl => ?_, fun s e rest hb hc => ?_⟩
  · rw [exec_readAxis hb hc, State.axisWords, ← hr]
    refine congrArg (fun w => Host.Outcome.next (finished s e rest .ok w)) (congrArg₂ (· ++ ·) ?_ ?_)
    · cases s.se.active.axes[i] with
      | none => rfl
      | some d => cases hk : d.kind <;> simp [axisDefWords, AxisKind.code, numWord, hk]
    · refine congrArg₂ List.cons ?_ (congrArg₂ List.cons rfl (congrArg₂ List.cons rfl (congrArg₂ List.cons ?_
        (congrArg₂ List.cons rfl (congrArg₂ List.cons rfl (congrArg₂ List.cons ?_ rfl))))))
      · cases r.state <;> rfl
      · cases r.direction <;> rfl
      · cases r.lastGood <;> rfl
  · rw [exec_readTrack hb hc, State.trackWords, ← hbank, flagWord_eq]
    refine congrArg (fun w => Host.Outcome.next (finished s e rest .ok w)) (congrArg₂ (· ++ ·) ?_ rfl)
    cases b.tracks[t] with
    | none => rfl
    | some d =>
      rw [trackDefWords, flagWord_eq]
      refine congrArg₂ List.cons rfl (congrArg₂ List.cons rfl (congrArg₂ List.cons rfl (congrArg₂ List.cons rfl
        (congrArg₂ List.cons rfl (congrArg₂ List.cons ?_ (congrArg₂ List.cons ?_ (congrArg₂ List.cons rfl
        (congrArg₂ List.cons ?_ rfl))))))))
      · cases d.polarity <;> rfl
      · cases d.qualifier <;> rfl
      · cases d.failAction <;> rfl
  · rw [exec_readWindows hb hstart hlow hhigh hc hl]
    exact ⟨fun h => congrArg _ (if_neg (Nat.not_lt.mpr h)), fun h => congrArg _ (if_pos h)⟩
  · rw [exec_readPool hb hc, State.poolWords]
    refine congrArg (fun w => Host.Outcome.next (finished s e rest .ok w)) (congrArg₂ List.cons rfl
      (congrArg₂ List.cons rfl (congrArg₂ List.cons ?_ (congrArg₂ List.cons ?_ (congrArg₂ List.cons ?_ rfl)))))
    · cases s.se.active.statusSlot <;> rfl
    · cases s.se.staged.statusSlot <;> rfl
    · cases s.se.selector <;> rfl

/-! ### DEFINE_AXIS, CLEAR_AXIS and DEFINE_STATUS_SLOT (R148, R149, R153) -/

/-- An edit with no edit lock changes the STAGED bank and answers (R98). -/
theorem edit_finishes {s : State} {e : CommandEntry} {rest : List CommandEntry} (hb : Begins s e rest)
    (hn : s.se.commit = .none) (change : Bank → Bank) (words : Bank → List Word) :
    s.edit change words = finished { s with se := s.se.withStaged (change s.se.staged) } e rest .ok
      (words (change s.se.staged)) := by
  have ⟨_, hq, _⟩ := hb
  rcases edit_cases s change words with ⟨hlock, -⟩ | ⟨-, h⟩
  · rw [hn] at hlock
    cases hlock
  · rw [h]
    refine complete_eq_finished ?_ _ _
    exact hq

/-- What DEFINE_AXIS carries, word by word (R148). -/
theorem axisDef_of_carries {e : CommandEntry} {index modulus : Word} {source stale : Byte} {rotary : Bool}
    {maxStep : Nat} (hstep : maxStep ≤ 1073741824)
    (hc : Carries e 0x10#8 [index, numWord source.toNat, if rotary then 1#32 else 0#32, modulus, numWord stale.toNat,
      numWord maxStep]) :
    e.axisDef = { source := source, kind := if rotary then .rotary else .linear
                  modulus := if rotary then modulus.toNat else 0, stale := stale, maxStep := maxStep } := by
  have hsource : e.num 1 = source.toNat := (num_of_carries hc 1).trans (numWord_byte source)
  have hkind : e.num 2 = if rotary then 1 else 0 := (num_of_carries hc 2).trans (flag_toNat rotary)
  have hmodulus : e.num 3 = modulus.toNat := num_of_carries hc 3
  have hstale : e.num 4 = stale.toNat := (num_of_carries hc 4).trans (numWord_byte stale)
  have hmax : e.num 5 = maxStep := (num_of_carries hc 5).trans (numWord_toNat (by omega))
  cases rotary <;> simp [CommandEntry.axisDef, AxisKind.ofCode, hsource, hkind, hmodulus, hstale, hmax]

theorem within_byte (b : Byte) (low : Nat) (h : low ≤ b.toNat) : Within (numWord b.toNat) (low, 255) := by
  have := b.isLt
  rw [Within, numWord_byte]
  exact ⟨h, by omega⟩

/-- The argument words of DEFINE_AXIS in range (R148). -/
theorem within_defineAxis {i : Fin 16} {source stale : Byte} {rotary : Bool} {modulus : Word} {maxStep : Nat}
    (hstale : 1 ≤ stale.toNat) (hlow : 1 ≤ maxStep) (hhigh : maxStep ≤ 1073741824)
    (hmodulus : rotary = true → 2 ≤ modulus.toNat ∧ modulus.toNat ≤ 2147483648) :
    List.Forall₂ Within
      [numWord i.val, numWord source.toNat, if rotary then 1#32 else 0#32, modulus, numWord stale.toNat,
        numWord maxStep]
      (rangesOf 0x10#8 [numWord i.val, numWord source.toNat, if rotary then 1#32 else 0#32, modulus,
        numWord stale.toNat, numWord maxStep]) := by
  have hmax : (numWord maxStep).toNat = maxStep := numWord_toNat (by omega)
  refine .cons (within_axis i) (.cons (within_byte source 0 (Nat.zero_le _)) (.cons (within_flag rotary)
    (.cons ?_ (.cons (within_byte stale 1 hstale) (.cons ⟨hlow.trans_eq hmax.symm, hmax.trans_le hhigh⟩ .nil)))))
  cases rotary with
  | false =>
    have := modulus.isLt
    show Within modulus (0, 4294967295)
    exact ⟨Nat.zero_le _, by omega⟩
  | true =>
    show Within modulus (2, 2147483648)
    exact hmodulus rfl

/-- What DEFINE_STATUS_SLOT carries: an id, or 256 for none (R91, R153). -/
def statusSlotWord (slot : Option Byte) : Word := numWord (statusSlotCode slot)

theorem statusSlotWord_toNat (slot : Option Byte) : (statusSlotWord slot).toNat = statusSlotCode slot := by
  cases slot with
  | none => rfl
  | some id => exact numWord_byte id

theorem within_statusSlot (slot : Option Byte) : Within (statusSlotWord slot) (0, 256) := by
  refine ⟨Nat.zero_le _, ?_⟩
  rw [statusSlotWord_toNat]
  cases slot with
  | none => exact Nat.le_refl _
  | some id => exact id.isLt.le

theorem statusSlot_of_carries {e : CommandEntry} {slot : Option Byte} (hc : Carries e 0x17#8 [statusSlotWord slot]) :
    e.statusSlot = slot := by
  have hnum : e.num 0 = statusSlotCode slot := (num_of_carries hc 0).trans (statusSlotWord_toNat slot)
  rw [CommandEntry.statusSlot, hnum]
  cases slot with
  | none => rfl
  | some id =>
    have := id.isLt
    rw [statusSlotCode, if_neg (by omega), BitVec.ofNat_toNat, BitVec.setWidth_eq]

/-- DEFINE_STATUS_SLOT with no edit lock (R153). -/
theorem exec_defineStatusSlot {s : State} {e : CommandEntry} {rest : List CommandEntry} {slot : Option Byte}
    (hb : Begins s e rest) (hn : s.se.commit = .none) (hc : Carries e 0x17#8 [statusSlotWord slot]) :
    exec .defineStatusSlot s = .next
      (finished { s with se := s.se.withStaged { s.se.staged with statusSlot := slot } } e rest .ok []) := by
  refine congrArg _ ((begins_of_carries (c := .defineStatusSlot) hb hc (List.mem_singleton.mpr rfl)
    (inRange_of_forall₂ (.cons (within_statusSlot slot) .nil)) _).trans ?_)
  rw [edit_finishes hb hn, statusSlot_of_carries hc]

/-- Settles O29: each edit by the definition its argument words carry. -/
theorem axisAndStatusDefinitionsAreWrittenStaged : Obligations.AxisAndStatusDefinitionsAreWrittenStaged := by
  refine ⟨fun s e rest i source stale rotary modulus maxStep hb hn =>
    ⟨fun hstale hlow hhigh hmodulus hc => ?_, fun hc => ?_⟩, fun s e rest slot hb hn hc => ?_⟩
  · have hi : e.axisIndex 0 = i := axisIndex_of_num ((num_of_carries hc 0).trans (numWord_axis i))
    refine congrArg _ ((begins_of_carries (c := .defineAxis) hb hc (List.mem_singleton.mpr rfl)
      (inRange_of_forall₂ (within_defineAxis hstale hlow hhigh hmodulus)) _).trans ?_)
    rw [edit_finishes hb hn, hi, axisDef_of_carries hhigh hc]
    rfl
  · have hi : e.axisIndex 0 = i := axisIndex_of_num ((num_of_carries hc 0).trans (numWord_axis i))
    refine congrArg _ ((begins_of_carries (c := .clearAxis) hb hc (List.mem_singleton.mpr rfl)
      (inRange_of_forall₂ (.cons (within_axis i) .nil)) _).trans ?_)
    rw [edit_finishes hb hn, hi]
    rfl
  · cases slot <;> exact exec_defineStatusSlot hb hn hc

end Sys2Proof.Proofs

/-!
PROOFS. The evaluation of a SAMPLE frame: the records it leaves, and that the MU is told each of its notices once.
-/
namespace Sys2Proof.Proofs

open Sys2Proof.Machine Sys2Proof.Claims

/-! ### The SE after the evaluation of a frame (R48, R81, R117) -/

/-- A swap changes no bank and no staged operation (R113). -/
theorem swapped_keeps (e : Se) (f : Frame) :
    (swapped e f).bankA = e.bankA ∧ (swapped e f).bankB = e.bankB ∧ (swapped e f).stagedOp = e.stagedOp := by
  unfold swapped
  split <;> exact ⟨rfl, rfl, rfl⟩

/-- The axes and tracks are updated behind the swap test, under the bank that is then ACTIVE (R117). -/
theorem evaluated_active (e : Se) (f : Frame) : (e.evaluated f).active = (swapped e f).active := rfl

theorem evaluated_axisRecords (e : Se) (f : Frame) (i : Fin 16) :
    (e.evaluated f).axisRecords[i] = (swapped e f).updatedAxis f i :=
  updateAxes_axisRecords (swapped e f) f i

/-- The tracks follow the axis records that the frame leaves (R81). -/
theorem evaluated_trackRecords (e : Se) (f : Frame) (k : Fin 32) :
    (e.evaluated f).trackRecords[k] = ((swapped e f).updateAxes f).evaluatedTrack k := by
  show (Se.evaluateTracks ((swapped e f).updateAxes f)).trackRecords[k] = _
  simp [Se.evaluateTracks]

/-- An enabled track is one whose definition is present and enabled (R69). -/
theorem enabledTrack_eq_some_iff (b : Bank) (t : Fin 32) (d : TrackDef) :
    b.enabledTrack t = some d ↔ b.tracks[t] = some d ∧ d.enabled = true := by
  unfold Bank.enabledTrack
  cases b.tracks[t] with
  | none => simp
  | some o =>
    simp only [Option.some.injEq]
    split
    · next h => exact ⟨fun ho => ⟨Option.some.inj ho, Option.some.inj ho ▸ h⟩, fun ho => congrArg some ho.1⟩
    · next h => exact ⟨nofun, fun ho => absurd (ho.1 ▸ ho.2) h⟩

/-- A track that is absent or not enabled is no enabled track (R69). -/
theorem enabledTrack_eq_none {b : Bank} {t : Fin 32} (h : ∀ d, b.tracks[t] = some d → d.enabled = false) :
    b.enabledTrack t = none := by
  rw [Option.eq_none_iff_forall_ne_some]
  intro d hd
  obtain ⟨ht, hon⟩ := (enabledTrack_eq_some_iff b t d).mp hd
  rw [h d ht] at hon
  cases hon

/-- An enabled track of an axis with a definition is evaluated (R81). -/
theorem evaluatedTrack_of_enabled {e : Se} {k : Fin 32} {d : TrackDef} {axis : AxisDef}
    (ht : e.active.enabledTrack k = some d) (ha : e.active.axes[d.axis] = some axis) :
    e.evaluatedTrack k = d.evaluated axis e.axisRecords[d.axis] e.active.lists[k] e.trackRecords[k] := by
  simp only [Se.evaluatedTrack, ht, ha]

theorem evaluatedTrack_of_none {e : Se} {k : Fin 32} (ht : e.active.enabledTrack k = none) :
    e.evaluatedTrack k = e.trackRecords[k] := by
  simp only [Se.evaluatedTrack, ht]

/-! ### Each notice of an evaluation is sent once (R92, R190, R193) -/

/-- The MU has taken some of the notices on their way in `s` or told since, each once and with the last cycle seen of
`s`; the others are on their way in `t`. -/
def Takes (s t : State) (told : List Notice) : Prop :=
  t.rpu.lastCycle = s.rpu.lastCycle
    ∧ ∃ taken : List Notice, t.mu = taken.foldl (fun m n => m.take s.rpu.lastCycle n) s.mu
      ∧ (taken ++ t.onWay.flatMap Event.notices).Perm (s.onWay.flatMap Event.notices ++ told)

theorem Takes.trans {s u t : State} {told told' : List Notice} (h : Takes s u told) (h' : Takes u t told') :
    Takes s t (told ++ told') := by
  obtain ⟨hcycle, taken, hmu, hperm⟩ := h
  obtain ⟨hcycle', taken', hmu', hperm'⟩ := h'
  refine ⟨hcycle'.trans hcycle, taken ++ taken', ?_, ?_⟩
  · rw [hmu', hmu, hcycle, List.foldl_append]
  · rw [List.append_assoc, ← List.append_assoc (s.onWay.flatMap Event.notices)]
    refine (hperm'.append_left taken).trans ?_
    rw [← List.append_assoc]
    exact hperm.append_right told'

theorem takes_deliver {s : State} (hheld : s.resetHeld = false) : Takes s s.deliver [] := by
  obtain ⟨taken, hmu, hperm, -⟩ := deliverBy_taken s.lag s
  have hd : s.deliver = s.deliverBy s.lag := if_neg (by simp [hheld])
  rw [Takes, deliver_rpu, hd]
  exact ⟨rfl, taken, hmu, by rwa [List.append_nil]⟩

theorem takes_takeAll (s : State) (l : List Notice) : Takes s (s.takeAll l) l := by
  obtain ⟨order, hperm, n, h⟩ := takeAll_order s l
  rw [h]
  exact ⟨rfl, order, rfl, (hperm.append_right _).trans List.perm_append_comm⟩

theorem takes_of_tells {s t : State} {told : List Notice} (h : Tells s t told)
    (hcycle : t.rpu.lastCycle = s.rpu.lastCycle) : Takes s t told := by
  obtain ⟨taken, hmu, hperm, -⟩ := h
  exact ⟨hcycle, taken, hmu, hperm⟩

/-- With no entry of `lag` left, the MU takes all that is on its way, and `lag` stays empty. -/
theorem deliver_lag_nil {s : State} (h : s.lag = []) : s.deliver.lag = [] := by
  unfold State.deliver
  split
  · exact h
  · rw [h, State.deliverBy]
    split
    · rfl
    · rw [takeAll_lag]

/-- The increments left of events are all their increments. -/
theorem flatMap_countsLeft (l : List (List Notice)) :
    (countsLeft l).flatMap Event.notices = l.flatten.filter Notice.isCount := by
  induction l with
  | nil => rfl
  | cons e rest ih =>
    rw [List.flatten_cons, List.filter_append, ← ih]
    unfold countsLeft
    rw [List.filterMap_cons]
    cases h : e.filter Notice.isCount <;> simp

/-- All that the evaluation of a frame tells the MU. -/
def toldOfFrame (e : Se) (f : Frame) : List Notice := (e.frameNotices f).flatten ++ [.count .samplesEvaluated]

/-- Before the status word the MU has taken every notice of the frame but its increments (R92). -/
theorem takes_beforeStatus {s : State} (hheld : s.resetHeld = false) (f : Frame) :
    Takes s (s.beforeStatus f) ((s.se.frameNotices f).flatten.filter (fun n => !n.isCount)) := by
  have hse : Takes s { s.deliver with se := s.se.evaluated f } [] := takes_deliver hheld
  exact hse.trans (takes_takeAll _ _)

/-- The part as it sends what is left to tell of a frame: with its status word written the increments, without one
every notice; SAMPLES_EVALUATED last (R48, R92). -/
theorem evaluate_eq_sendEvents (s : State) (f : Frame) :
    (∃ g, s.evaluate f = State.sendEvents { s.beforeStatus f with rpu := s.rpu.handedBack g }
        (countsLeft (s.se.frameNotices f) ++ [Event.whole [.count .samplesEvaluated]]))
      ∨ ∃ g, s.evaluate f = State.sendEvents { s with se := s.se.evaluated f, rpu := s.rpu.handedBack g }
        ((s.se.frameNotices f).map Event.whole ++ [Event.whole [.count .samplesEvaluated]]) := by
  unfold State.evaluate
  simp only
  split
  · exact .inl ⟨_, rfl⟩
  · refine .inr ⟨((s.se.evaluated f).writeActions f).leaving f, ?_⟩
    rw [State.send, List.map_append]
    rfl

/-- The evaluation of a frame tells the MU its notices and SAMPLES_EVALUATED, each once (R190, R193). -/
theorem tells_evaluate {s : State} (hheld : s.resetHeld = false) (f : Frame) :
    Tells s (s.evaluate f) (toldOfFrame s.se f) := by
  rcases evaluate_eq_sendEvents s f with ⟨g, h⟩ | ⟨g, h⟩ <;> rw [h]
  · have hbefore : Takes s { s.beforeStatus f with rpu := s.rpu.handedBack g }
        ((s.se.frameNotices f).flatten.filter (fun n => !n.isCount)) :=
      ⟨rfl, (takes_beforeStatus hheld f).2⟩
    have hsent := tells_sendEvents (s := { s.beforeStatus f with rpu := s.rpu.handedBack g })
      ((beforeStatus_resetHeld s f).trans hheld)
      (countsLeft (s.se.frameNotices f) ++ [Event.whole [.count .samplesEvaluated]])
    obtain ⟨-, taken, hmu, hperm⟩ := hbefore.trans (takes_of_tells hsent (by rw [sendEvents_rpu]))
    obtain ⟨-, -, -, hnone⟩ := hsent
    refine ⟨taken, hmu, hperm.trans (List.Perm.append_left _ ?_), fun hl => hnone ?_⟩
    · rw [List.flatMap_append, flatMap_countsLeft, ← List.append_assoc, toldOfFrame]
      refine List.Perm.append_right _ ?_
      exact (List.perm_append_comm).trans (List.filter_append_perm _ _)
    · show (s.beforeStatus f).lag = []
      rw [State.beforeStatus, takeAll_lag]
      exact deliver_lag_nil hl
  · have hsent := tells_sendEvents (s := { s with se := s.se.evaluated f, rpu := s.rpu.handedBack g }) hheld
      ((s.se.frameNotices f).map Event.whole ++ [Event.whole [.count .samplesEvaluated]])
    have htold : ((s.se.frameNotices f).map Event.whole ++ [Event.whole [.count .samplesEvaluated]]).flatMap
        Event.notices = toldOfFrame s.se f := by
      rw [List.flatMap_append, List.flatMap_map, toldOfFrame, List.flatMap_def]
      exact congrArg (fun l => List.flatten l ++ _) (List.map_id _)
    exact htold ▸ hsent

end Sys2Proof.Proofs

/-!
PROOFS. What the evaluation of a frame tells the MU, notice by notice.
-/
namespace Sys2Proof.Proofs

open Sys2Proof.Machine Sys2Proof.Claims

/-! ### What the axes of a frame tell (R53, R63, R113, R115) -/

/-- The reports of the sample of an axis (R53). -/
theorem mem_sampleReports_iff (d : AxisDef) (i : Fin 16) (out : Sample) (r : Report) :
    r ∈ d.sampleReports i out ↔
      (out = .wrongType ∧ r = { code := .slotType, subject := d.source, detail := 0#16 })
      ∨ (out = .outOfRange ∧ r = { code := .sampleRange, subject := BitVec.ofNat 8 i.val, detail := 0#16 })
      ∨ ∃ m, out = .implausible m
        ∧ r = { code := .implausibleStep, subject := BitVec.ofNat 8 i.val
                detail := BitVec.ofNat 16 (min m 65535) } := by
  cases out <;> simp [AxisDef.sampleReports]

/-- A frame makes this report of the sample of an axis (R49, R53). -/
def SampleReport (e : Se) (f : Frame) (i : Fin 16) (r : Report) : Prop :=
  ∃ d, e.active.axes[i] = some d ∧ e.axisRecords[i].state ≠ .unbound
    ∧ r ∈ d.sampleReports i (d.sample f e.axisRecords[i])

/-- A frame takes an axis into LOST by a miss (R63). -/
def LostByFrame (e : Se) (f : Frame) (i : Fin 16) : Prop :=
  e.axisRecords[i].state ≠ .lost ∧ (e.updatedAxis f i).state = .lost

theorem entersLost_iff (e : Se) (f : Frame) (i : Fin 16) :
    entersLost e.axisRecords[i] (e.updatedAxis f i) = true ↔ LostByFrame e f i := by
  simp [entersLost, LostByFrame]

/-- Only an axis with a definition that is not UNBOUND is taken into LOST by a frame. -/
theorem bound_of_lostByFrame {e : Se} {f : Frame} {i : Fin 16} (h : LostByFrame e f i) :
    (∃ d, e.active.axes[i] = some d) ∧ e.axisRecords[i].state ≠ .unbound := by
  obtain ⟨hbefore, hafter⟩ := h
  by_contra hn
  have hkept : e.updatedAxis f i = e.axisRecords[i] := by
    refine updatedAxis_of_unbound ?_ f
    cases hd : e.active.axes[i] with
    | none => exact .inl rfl
    | some d =>
      refine .inr ?_
      by_contra hs
      exact hn ⟨⟨d, hd⟩, hs⟩
  exact hbefore (hkept ▸ hafter)

/-- An axis that takes the sample of a frame tells of the sample, and of its entering LOST (R53, R63). -/
theorem axisNotices_of_some {e : Se} {f : Frame} {i : Fin 16} {d : AxisDef} (hd : e.active.axes[i] = some d)
    (hs : e.axisRecords[i].state ≠ .unbound) :
    e.axisNotices f i = (d.sampleReports i (d.sample f e.axisRecords[i])).map (fun r => [.fault r])
      ++ (if entersLost e.axisRecords[i] (e.updatedAxis f i) then [lostNotices i] else []) := by
  simp only [Se.axisNotices, hd, hs, if_false]

/-- An axis that takes no sample tells nothing (R47). -/
theorem axisNotices_of_unbound {e : Se} {i : Fin 16} (f : Frame)
    (h : ¬ ((∃ d, e.active.axes[i] = some d) ∧ e.axisRecords[i].state ≠ .unbound)) : e.axisNotices f i = [] := by
  unfold Se.axisNotices
  split
  · rfl
  · next d hd => exact if_pos (by_contra fun hs => h ⟨⟨d, hd⟩, hs⟩)

theorem mem_lostNotices_iff (i : Fin 16) (n : Notice) :
    n ∈ lostNotices i ↔ n = .fault (axisLostReport i) ∨ n = .latch .axisLost := by
  simp [lostNotices]

/-- What one axis tells of a frame. -/
theorem mem_axisNotices_iff (e : Se) (f : Frame) (i : Fin 16) (n : Notice) :
    n ∈ (e.axisNotices f i).flatten ↔
      (∃ r, SampleReport e f i r ∧ n = .fault r) ∨ (LostByFrame e f i ∧ n ∈ lostNotices i) := by
  by_cases hb : (∃ d, e.active.axes[i] = some d) ∧ e.axisRecords[i].state ≠ .unbound
  · obtain ⟨⟨d, hd⟩, hs⟩ := hb
    have hreport (r : Report) : SampleReport e f i r ↔ r ∈ d.sampleReports i (d.sample f e.axisRecords[i]) := by
      simp only [SampleReport, hd, Option.some.injEq, exists_eq_left', hs, ne_eq, not_false_eq_true, true_and]
    rw [axisNotices_of_some hd hs, List.flatten_append, List.mem_append]
    refine or_congr ?_ ?_
    · simp only [hreport, List.mem_flatten, List.mem_map]
      constructor
      · rintro ⟨_, ⟨r, hr, rfl⟩, hn⟩
        exact ⟨r, hr, List.mem_singleton.mp hn⟩
      · rintro ⟨r, hr, rfl⟩
        exact ⟨_, ⟨r, hr, rfl⟩, List.mem_singleton.mpr rfl⟩
    · rw [← entersLost_iff]
      split
      · next h => simp only [List.flatten_cons, List.flatten_nil, List.append_nil, h, true_and]
      · next h => simp only [List.flatten_nil, List.not_mem_nil, h, Bool.false_eq_true, false_and]
  · rw [axisNotices_of_unbound f hb]
    refine iff_of_false List.not_mem_nil ?_
    rintro (⟨r, ⟨d, hd, hs, -⟩, -⟩ | ⟨h, -⟩)
    · exact hb ⟨⟨d, hd⟩, hs⟩
    · exact hb (bound_of_lostByFrame h)

/-- The swap at a frame takes an axis into LOST (R115). -/
def LostBySwap (e : Se) (f : Frame) (i : Fin 16) : Prop :=
  e.commit.swapDue (cycleOf f) = true
    ∧ lostAtSwap e.active.axes[i] e.staged.axes[i] e.axisRecords[i] = true

/-- What the swap of a frame tells, event by event (R113, R115). -/
def swapEvents (e : Se) (f : Frame) : List (List Notice) :=
  if e.commit.swapDue (cycleOf f) then e.swapNotices else []

/-- The swap and the axes tell of a frame, one behind the other (R117). -/
theorem axisWorkNotices_eq (e : Se) (f : Frame) :
    e.axisWorkNotices f = swapEvents e f ++ (List.finRange 16).flatMap ((swapped e f).axisNotices f) := by
  unfold Se.axisWorkNotices swapEvents swapped
  split <;> rfl

theorem mem_swapEvents_iff (e : Se) (f : Frame) (n : Notice) :
    n ∈ (swapEvents e f).flatten ↔
      (e.commit.swapDue (cycleOf f) = true ∧ n = .latch .commitDone) ∨ ∃ i, LostBySwap e f i ∧ n ∈ lostNotices i := by
  unfold swapEvents LostBySwap
  cases hdue : e.commit.swapDue (cycleOf f) with
  | false => simp
  | true => simp [Se.swapNotices]

/-! ### What the slots of a frame tell (R89, R90, R92) -/

/-- The report of an owned slot id that is absent (R89). -/
def missingReport (id : Byte) : Report := { code := .actionSlotMissing, subject := id, detail := 0#16 }

/-- The report of a slot of the wrong type (R53, R90, R92). -/
def typeReport (id : Byte) : Report := { code := .slotType, subject := id, detail := 0#16 }

/-- What an owned slot id tells of the frame received (R89, R90). -/
def actionEvents (f : Frame) (id : Byte) : List (List Notice) :=
  match findSlot f id with
  | none => [[.count .actionSlotsMissing, .fault (missingReport id)]]
  | some o => if byteAt f (o + 1) = 2#8 then [] else [[.fault (typeReport id)]]

theorem actionEvents_of_absent {f : Frame} {id : Byte} (h : findSlot f id = none) :
    actionEvents f id = [[.count .actionSlotsMissing, .fault (missingReport id)]] := by
  rw [actionEvents, h]

theorem actionEvents_of_found {f : Frame} {id : Byte} {o : Nat} (h : findSlot f id = some o) :
    actionEvents f id = if byteAt f (o + 1) = 2#8 then [] else [[.fault (typeReport id)]] := by
  rw [actionEvents, h]

theorem mem_actionEvents_iff (f : Frame) (id : Byte) (n : Notice) :
    n ∈ (actionEvents f id).flatten ↔
      (findSlot f id = none ∧ (n = .count .actionSlotsMissing ∨ n = .fault (missingReport id)))
      ∨ ∃ o, findSlot f id = some o ∧ byteAt f (o + 1) ≠ 2#8 ∧ n = .fault (typeReport id) := by
  cases ho : findSlot f id with
  | none => simp [actionEvents_of_absent ho]
  | some o =>
    rw [actionEvents_of_found ho]
    split
    · next h => simp [h]
    · next h => simp [h]

/-- The work for one owned slot id tells what the frame received shows, though other slots were written before (R88). -/
theorem ownSlot_notices {e : Se} {f : Frame} {w : SlotWork} {P : Byte → Nat → Prop} (h : DiffersInValues f w.frame P)
    (id : Byte) : (e.ownSlot w id).notices = w.notices ++ actionEvents f id := by
  unfold Se.ownSlot
  rw [h.findSlot_eq id]
  cases ho : findSlot f id with
  | none => rw [actionEvents_of_absent ho]; rfl
  | some o =>
    rw [actionEvents_of_found ho]
    simp only
    rw [h.slotRole_eq ho]
    by_cases ht : byteAt f (o + 1) = 2#8
    · rw [if_pos ht, List.append_nil]
      simp only [(slotRole_eq_action_iff f o).mpr ht]
    · rw [if_neg ht]
      have hrole := mt (slotRole_eq_action_iff f o).mp ht
      cases hr : slotRole f o with
      | action => exact absurd hr hrole
      | position | status | opaqueRole => rfl

/-- The ACTION writes tell of each owned slot id, in turn (R87). -/
theorem writeActions_notices (e : Se) (f : Frame) :
    (e.writeActions f).notices = e.active.ownedSlots.flatMap (actionEvents f) := by
  have told (ids : List Byte) (hids : ∀ id ∈ ids, Owned e.active id) (w : SlotWork)
      (hw : DiffersInValues f w.frame (ActionWritable e.active f)) (hkept : w.wrote = false → w.frame = f) :
      (ids.foldl e.ownSlot w).notices = w.notices ++ ids.flatMap (actionEvents f) := by
    induction ids generalizing w with
    | nil => simp
    | cons id rest ih =>
      obtain ⟨hnext, hkept'⟩ := differsInValues_ownSlot (hids id List.mem_cons_self) hw hkept
      rw [List.foldl_cons, ih (fun x hx => hids x (List.mem_cons_of_mem id hx)) _ hnext hkept', ownSlot_notices hw,
        List.append_assoc, List.flatMap_cons]
  exact told _ (fun id hid => (mem_ownedSlots_iff _ id).mp hid) _ (differsInValues_refl f _) (fun _ => rfl)

/-- The status slot of a frame is of the wrong type (R92). -/
def StatusReport (b : Bank) (f : Frame) (r : Report) : Prop :=
  ∃ id o, b.statusSlot = some id ∧ findSlot f id = some o ∧ byteAt f (o + 1) ≠ 3#8 ∧ r = typeReport id

theorem statusNotices_eq (e : Se) (f : Frame) :
    (∃ r, StatusReport e.active f r ∧ e.statusNotices f = [[.fault r]])
      ∨ (∀ r, ¬ StatusReport e.active f r) ∧ e.statusNotices f = [] := by
  unfold StatusReport Se.statusNotices
  cases hid : e.active.statusSlot with
  | none => simp
  | some id =>
    cases ho : findSlot f id with
    | none => simp [ho]
    | some o =>
      by_cases ht : byteAt f (o + 1) = 3#8
      · have hrole := (slotRole_eq_status_iff f o).mpr ht
        simp [ho, ht, hrole]
      · have hrole := mt (slotRole_eq_status_iff f o).mp ht
        refine .inl ⟨typeReport id, ⟨id, o, rfl, ho, ht, rfl⟩, ?_⟩
        simp only [ho, hrole, if_false]
        rfl

theorem mem_statusNotices_iff (e : Se) (f : Frame) (n : Notice) :
    n ∈ (e.statusNotices f).flatten ↔ ∃ r, StatusReport e.active f r ∧ n = .fault r := by
  rcases statusNotices_eq e f with ⟨r, hr, h⟩ | ⟨hnone, h⟩ <;> rw [h]
  · refine ⟨fun hn => ⟨r, hr, by simpa using hn⟩, ?_⟩
    rintro ⟨r', ⟨id', o', hid', ho', -, rfl⟩, rfl⟩
    obtain ⟨id, o, hid, ho, -, rfl⟩ := hr
    obtain rfl : id = id' := Option.some.inj (hid.symm.trans hid')
    simp
  · refine iff_of_false List.not_mem_nil ?_
    rintro ⟨r, hr, -⟩
    exact hnone r hr

/-! ### All that a frame tells -/

theorem mem_flatten_flatMap {α : Type} (l : List α) (g : α → List (List Notice)) (n : Notice) :
    n ∈ (l.flatMap g).flatten ↔ ∃ x ∈ l, n ∈ (g x).flatten := by
  simp only [List.mem_flatten, List.mem_flatMap]
  constructor
  · rintro ⟨e, ⟨x, hx, he⟩, hn⟩
    exact ⟨x, hx, e, he, hn⟩
  · rintro ⟨x, hx, e, he, hn⟩
    exact ⟨e, ⟨x, hx, he⟩, hn⟩

/-- What a frame tells before SAMPLES_EVALUATED: the swap, the axes, the owned slots, the status slot. -/
theorem frameNotices_eq (e : Se) (f : Frame) :
    e.frameNotices f = swapEvents e f ++ (List.finRange 16).flatMap ((swapped e f).axisNotices f)
      ++ (swapped e f).active.ownedSlots.flatMap (actionEvents f) ++ (e.evaluated f).statusNotices f := by
  rw [Se.frameNotices, axisWorkNotices_eq, writeActions_notices, evaluated_active]

/-- An axis enters LOST at a frame, at its swap or by a miss (R63, R115). -/
def EntersLost (e : Se) (f : Frame) (i : Fin 16) : Prop := LostBySwap e f i ∨ LostByFrame (swapped e f) f i

theorem mem_frameNotices_iff (e : Se) (f : Frame) (n : Notice) :
    n ∈ (e.frameNotices f).flatten ↔
      (e.commit.swapDue (cycleOf f) = true ∧ n = .latch .commitDone)
      ∨ (∃ i, EntersLost e f i ∧ (n = .fault (axisLostReport i) ∨ n = .latch .axisLost))
      ∨ (∃ i r, SampleReport (swapped e f) f i r ∧ n = .fault r)
      ∨ (∃ id, Owned (swapped e f).active id
        ∧ ((findSlot f id = none ∧ (n = .count .actionSlotsMissing ∨ n = .fault (missingReport id)))
          ∨ ∃ o, findSlot f id = some o ∧ byteAt f (o + 1) ≠ 2#8 ∧ n = .fault (typeReport id)))
      ∨ ∃ r, StatusReport (swapped e f).active f r ∧ n = .fault r := by
  have haxes : n ∈ ((List.finRange 16).flatMap ((swapped e f).axisNotices f)).flatten ↔
      (∃ i r, SampleReport (swapped e f) f i r ∧ n = .fault r)
        ∨ ∃ i, LostByFrame (swapped e f) f i ∧ (n = .fault (axisLostReport i) ∨ n = .latch .axisLost) := by
    simp only [mem_flatten_flatMap, List.mem_finRange, true_and, mem_axisNotices_iff, mem_lostNotices_iff, exists_or]
  rw [frameNotices_eq]
  simp only [List.flatten_append, List.mem_append, haxes, mem_flatten_flatMap, mem_ownedSlots_iff, mem_actionEvents_iff,
    mem_swapEvents_iff, mem_lostNotices_iff, mem_statusNotices_iff, evaluated_active, EntersLost, or_and_right,
    exists_or]
  exact iff_of_eq (by ac_rfl)

/-- SAMPLES_EVALUATED is told last (R93). -/
theorem mem_toldOfFrame_iff (e : Se) (f : Frame) (n : Notice) :
    n ∈ toldOfFrame e f ↔ n ∈ (e.frameNotices f).flatten ∨ n = .count .samplesEvaluated := by
  rw [toldOfFrame, List.mem_append, List.mem_singleton]

end Sys2Proof.Proofs

/-!
PROOFS. The fault reports, latch reports and increments of an evaluation, and the MU behind it.
-/
namespace Sys2Proof.Proofs

open Sys2Proof.Machine Sys2Proof.Claims

/-! ### Notice by notice -/

/-- An owned slot id makes this report of a frame (R89, R90). -/
def SlotReport (b : Bank) (f : Frame) (r : Report) : Prop :=
  ∃ id, Owned b id ∧ ((findSlot f id = none ∧ r = missingReport id)
    ∨ ∃ o, findSlot f id = some o ∧ byteAt f (o + 1) ≠ 2#8 ∧ r = typeReport id)

/-- The fault reports that a frame makes. -/
theorem fault_mem_toldOfFrame_iff (e : Se) (f : Frame) (r : Report) :
    .fault r ∈ toldOfFrame e f ↔
      (∃ i, EntersLost e f i ∧ r = axisLostReport i) ∨ (∃ i, SampleReport (swapped e f) f i r)
      ∨ SlotReport (swapped e f).active f r ∨ StatusReport (swapped e f).active f r := by
  rw [mem_toldOfFrame_iff, mem_frameNotices_iff]
  simp [SlotReport]

theorem axisLost_mem_toldOfFrame_iff (e : Se) (f : Frame) :
    .latch .axisLost ∈ toldOfFrame e f ↔ ∃ i, EntersLost e f i := by
  rw [mem_toldOfFrame_iff, mem_frameNotices_iff]
  simp

theorem commitDone_mem_toldOfFrame_iff (e : Se) (f : Frame) :
    .latch .commitDone ∈ toldOfFrame e f ↔ e.commit.swapDue (cycleOf f) = true := by
  rw [mem_toldOfFrame_iff, mem_frameNotices_iff]
  simp

theorem linkChange_notMem_toldOfFrame (e : Se) (f : Frame) : .latch .linkChange ∉ toldOfFrame e f := by
  rw [mem_toldOfFrame_iff, mem_frameNotices_iff]
  simp

/-- Before its end a frame makes no increment but ACTION_SLOTS_MISSING (R89). -/
theorem count_mem_frameNotices {e : Se} {f : Frame} {c : Counter} (h : .count c ∈ (e.frameNotices f).flatten) :
    c = .actionSlotsMissing := by
  rw [mem_frameNotices_iff] at h
  simp only [reduceCtorEq, and_false, or_self, exists_false, Notice.count.injEq, or_false, false_or] at h
  obtain ⟨id, -, -, h⟩ := h
  exact h

/-- The increments that a frame makes: SAMPLES_EVALUATED and ACTION_SLOTS_MISSING (R89, R93). -/
theorem count_mem_toldOfFrame {e : Se} {f : Frame} {c : Counter} (h : .count c ∈ toldOfFrame e f) :
    c = .samplesEvaluated ∨ c = .actionSlotsMissing := by
  rcases (mem_toldOfFrame_iff e f _).mp h with h | h
  · exact .inr (count_mem_frameNotices h)
  · exact .inl (Notice.count.inj h)

/-- SAMPLES_EVALUATED is counted once (R93). -/
theorem count_samplesEvaluated (e : Se) (f : Frame) : (toldOfFrame e f).count (.count .samplesEvaluated) = 1 := by
  have hbefore : .count .samplesEvaluated ∉ (e.frameNotices f).flatten := fun h => by cases count_mem_frameNotices h
  rw [toldOfFrame, List.count_append, List.count_eq_zero.mpr hbefore]
  rfl

/-! ### The counters and latches behind an evaluation (R192, R195) -/

/-- A counter stands at its place in the order of READ_COUNTERS (R164). -/
theorem counterOrder_index (c : Counter) : counterOrder[c.index.val]? = some c := by
  cases c <;> rfl

theorem index_injective : Function.Injective Counter.index := by
  intro c c' h
  exact Option.some.inj ((counterOrder_index c).symm.trans (h ▸ counterOrder_index c'))

/-- An increment raises its own counter, held at 65535, and no other (R192). -/
theorem count_counter (m : Mu) (c c' : Counter) :
    ((m.count c').counters[c.index]).toNat
      = min (m.counters[c.index].toNat + if c' = c then 1 else 0) 65535 := by
  show ((m.counters.set c'.index.val (countUp m.counters[c'.index]))[c.index.val]).toNat = _
  have hmax := m.counters[c.index].isLt
  by_cases h : c' = c
  · subst h
    rw [Vector.getElem_set_self, countUp_toNat, if_pos rfl]
  · have hne : c'.index.val ≠ c.index.val := fun he => h (index_injective (Fin.ext he))
    rw [Vector.getElem_set_ne _ _ hne, if_neg h]
    show m.counters[c.index].toNat = _
    omega

/-- Notices taken one behind the other raise each counter by its increments, held at 65535 (R192). -/
theorem foldl_take_counter (cycle : Option Half) (l : List Notice) (m : Mu) (c : Counter) :
    ((l.foldl (fun m n => m.take cycle n) m).counters[c.index]).toNat
      = min (m.counters[c.index].toNat + l.count (.count c)) 65535 := by
  induction l generalizing m with
  | nil =>
    have hmax := m.counters[c.index].isLt
    show m.counters[c.index].toNat = min (m.counters[c.index].toNat + 0) 65535
    omega
  | cons n rest ih =>
    rw [List.foldl_cons, ih, List.count_cons]
    cases n with
    | count c' =>
      have hstep : ((m.take cycle (.count c')).counters[c.index]).toNat = _ := count_counter m c c'
      simp only [hstep, beq_iff_eq, Notice.count.injEq]
      omega
    | fault r => rfl
    | latch x => rfl

/-- Notices without a report to latch LINK_CHANGE leave it as it is (R195). -/
theorem foldl_take_linkChange (cycle : Option Half) (l : List Notice) (m : Mu) (h : .latch .linkChange ∉ l) :
    (l.foldl (fun m n => m.take cycle n) m).latches.linkChange = m.latches.linkChange := by
  induction l generalizing m with
  | nil => rfl
  | cons n rest ih =>
    rw [List.mem_cons, not_or] at h
    rw [List.foldl_cons, ih _ h.2]
    cases n with
    | count c => rfl
    | fault r => rfl
    | latch x =>
      cases x with
      | linkChange => exact absurd rfl h.1
      | axisLost => rfl
      | commitDone => rfl

/-- What the MU holds behind the evaluation of a frame (R92, R192, R195). -/
theorem mu_of_evaluate {s : State} (hheld : s.resetHeld = false) (f : Frame) :
    (s.onWay = [] → s.lag = [] → (s.evaluate f).mu.counters[Counter.samplesEvaluated.index].toNat
        = min (s.mu.counters[Counter.samplesEvaluated.index].toNat + 1) 65535)
      ∧ (s.onWay = [] → ∀ c : Counter, c ≠ .samplesEvaluated → c ≠ .actionSlotsMissing →
        (s.evaluate f).mu.counters[c.index] = s.mu.counters[c.index])
      ∧ (s.evaluate f).mu.mask = s.mu.mask
      ∧ (s.onWay = [] → (s.evaluate f).mu.latches.linkChange = s.mu.latches.linkChange) := by
  obtain ⟨taken, hmu, hperm, hnone⟩ := tells_evaluate hheld f
  have hof (hw : s.onWay = []) : ∀ n ∈ taken, n ∈ toldOfFrame s.se f := by
    rw [hw, List.flatMap_nil, List.nil_append] at hperm
    exact fun n hn => hperm.subset (List.mem_append_left _ hn)
  rw [hmu]
  refine ⟨fun hw hl => ?_, fun hw c hc hc' => BitVec.eq_of_toNat_eq ?_, foldl_take_mask _ _ _, fun hw => ?_⟩
  · rw [hw, hnone hl, List.flatMap_nil, List.append_nil, List.nil_append] at hperm
    rw [foldl_take_counter, hperm.count_eq, count_samplesEvaluated]
  · have hnot : .count c ∉ taken := fun h => (count_mem_toldOfFrame (hof hw _ h)).elim hc hc'
    have hmax := s.mu.counters[c.index].isLt
    rw [foldl_take_counter, List.count_eq_zero.mpr hnot]
    omega
  · exact foldl_take_linkChange _ _ _ (fun h => linkChange_notMem_toldOfFrame s.se f (hof hw _ h))

/-- Settles O44: the SE by `Se.evaluated`, the frame by the hand-back, the MU by what the evaluation tells it. -/
theorem sampleEvaluationUpdatesAxesThenTracks : Obligations.SampleEvaluationUpdatesAxesThenTracks := by
  intro s f handed hev
  have ⟨hheld, hhanded, _⟩ := hev
  obtain ⟨mu, onWay, lag, n, ht⟩ := evaluate_eq s f
  obtain ⟨hcount, hcounters, hmask, hlink⟩ := mu_of_evaluate hheld f
  obtain ⟨hA, hB, hop⟩ := swapped_keeps s.se f
  have hse : (s.evaluate f).se = s.se.evaluated f := by rw [ht]
  have hrpu : (s.evaluate f).rpu = s.rpu.handedBack (handedBackFrame s f) := by rw [ht]
  refine ⟨s.evaluate f, handedBackFrame s f, exec_sampleEvaluation hev, ?_, ?_, ?_, ?_⟩
  · rcases evaluate_eq_sendEvents s f with ⟨g, h⟩ | ⟨g, h⟩ <;> exact ⟨_, _, h⟩
  · rw [ht]
    exact ⟨rfl, rfl, rfl, rfl, rfl⟩
  · rw [hrpu, Rpu.handedBack, hhanded]
    rfl
  rw [hse]
  refine ⟨hA, hB, hop, rfl, rfl, rfl, fun i d hd hs => ?_, fun i hi => ?_, fun k d axis hk hon ha => ?_,
    fun k hoff => ?_, hcount, hcounters, hmask, hlink⟩
  · rw [evaluated_axisRecords]
    exact updatedAxis_of_some (e := swapped s.se f) hd hs f
  · rw [evaluated_axisRecords]
    exact updatedAxis_of_unbound (e := swapped s.se f) hi f
  · rw [evaluated_trackRecords]
    exact evaluatedTrack_of_enabled ((enabledTrack_eq_some_iff _ _ _).mpr ⟨hk, hon⟩) ha
  · rw [evaluated_trackRecords]
    exact evaluatedTrack_of_none (enabledTrack_eq_none hoff)

end Sys2Proof.Proofs

/-!
PROOFS. While the ACTIVE bank is valid an evaluation makes each fault report once, and all that it tells the MU.
-/
namespace Sys2Proof.Proofs

open Sys2Proof.Machine Sys2Proof.Claims

/-! ### The slot ids of a bank that passes validation (R103, R104) -/

theorem axisWithSource_eq_none {b : Bank} {id : Byte} (h : b.axisWithSource id = none) {i : Fin 16} {d : AxisDef}
    (hd : b.axes[i] = some d) : d.source ≠ id := by
  have hi := List.find?_eq_none.mp h i (List.mem_finRange i)
  rw [hd] at hi
  simpa using hi

/-- The axis found for a source slot id is the first that has it (R103). -/
theorem axisWithSource_eq_some {b : Bank} {id : Byte} {j : Fin 16} (h : b.axisWithSource id = some j) {i : Fin 16}
    {d : AxisDef} (hd : b.axes[i] = some d) (hs : d.source = id) : j ≤ i := by
  rw [Bank.axisWithSource, ← Fin.find?_eq_find?_finRange] at h
  obtain ⟨-, hfirst⟩ := Fin.find?_eq_some_iff.mp h
  by_contra hlt
  have hi := hfirst i (not_le.mp hlt)
  rw [hd] at hi
  simp [hs] at hi

/-- Validation passes when no step of the scan finds a violation (R102). -/
theorem validate_eq_none {b : Bank} (h : b.validate = none) :
    (∀ i, b.axisFault i = none) ∧ b.statusFault = none ∧ ∀ t, b.trackFault t = none := by
  unfold Bank.validate at h
  split at h
  · cases h
  · next haxes =>
    split at h
    · cases h
    · next hstatus =>
      exact ⟨fun i => List.findSome?_eq_none_iff.mp haxes i (List.mem_finRange i), hstatus,
        fun t => List.findSome?_eq_none_iff.mp h t (List.mem_finRange t)⟩

/-- An axis that breaks no condition is the one found for its source slot id (R103). -/
theorem axisWithSource_of_sound {b : Bank} {i : Fin 16} {d : AxisDef} (h : b.axisFault i = none)
    (hd : b.axes[i] = some d) : b.axisWithSource d.source = some i := by
  unfold Bank.axisFault at h
  rw [hd] at h
  cases hj : b.axisWithSource d.source with
  | none => exact absurd rfl (axisWithSource_eq_none hj hd)
  | some j =>
    simp only [hj] at h
    split at h
    · cases h
    · next hlt => rw [le_antisymm (axisWithSource_eq_some hj hd rfl) (not_lt.mp hlt)]

/-- In a valid bank no two axes share a source slot id (R103). -/
theorem axesSound_of_valid {b : Bank} (h : b.validate = none) : AxesSound b := by
  obtain ⟨haxes, -, -⟩ := validate_eq_none h
  intro i j c d hc hd hs
  have hi := axisWithSource_of_sound (haxes i) hc
  rw [hs, axisWithSource_of_sound (haxes j) hd] at hi
  exact (Option.some.inj hi).symm

/-- In a valid bank the status slot is no source slot (R103). -/
theorem statusSound_of_valid {b : Bank} (h : b.validate = none) : StatusSound b := by
  obtain ⟨-, hstatus, -⟩ := validate_eq_none h
  intro i c hc hs
  unfold Bank.statusFault at hstatus
  rw [hs] at hstatus
  cases hj : b.axisWithSource c.source with
  | none => exact axisWithSource_eq_none hj hc rfl
  | some j => simp [hj] at hstatus

/-- In a valid bank an owned slot id is neither a source slot nor the status slot (R104). -/
theorem owned_of_valid {b : Bank} (h : b.validate = none) {id : Byte} (hid : Owned b id) :
    (∀ (i : Fin 16) (d : AxisDef), b.axes[i] = some d → d.source ≠ id) ∧ b.statusSlot ≠ some id := by
  obtain ⟨-, -, htracks⟩ := validate_eq_none h
  obtain ⟨t, d, ht, rfl⟩ := hid
  have hfault := htracks t
  unfold Bank.trackFault at hfault
  rw [ht] at hfault
  simp only at hfault
  split at hfault
  · cases hfault
  · split at hfault
    · cases hfault
    · next hsource =>
      split at hfault
      · cases hfault
      · next hstatus => exact ⟨fun i c hc => axisWithSource_eq_none hsource hc, hstatus⟩

/-! ### Each fault report once (R189) -/

/-- The fault reports among the notices of events, in order. -/
def reportsOf (l : List (List Notice)) : List Report := l.flatten.filterMap Notice.report?

theorem mem_reportsOf_iff (l : List (List Notice)) (r : Report) : r ∈ reportsOf l ↔ .fault r ∈ l.flatten := by
  rw [reportsOf, List.mem_filterMap]
  constructor
  · rintro ⟨n, hn, hr⟩
    cases n with
    | fault r' => exact Option.some.inj hr ▸ hn
    | count c => cases hr
    | latch c => cases hr
  · exact fun h => ⟨_, h, rfl⟩

theorem reportsOf_append (l l' : List (List Notice)) : reportsOf (l ++ l') = reportsOf l ++ reportsOf l' := by
  rw [reportsOf, List.flatten_append, List.filterMap_append]
  rfl

theorem reportsOf_flatMap {α : Type} (l : List α) (g : α → List (List Notice)) :
    reportsOf (l.flatMap g) = l.flatMap (fun x => reportsOf (g x)) := by
  induction l with
  | nil => rfl
  | cons x rest ih => rw [List.flatMap_cons, reportsOf_append, ih, List.flatMap_cons]

/-- The fault reports of a frame, by what makes them. -/
theorem reports_toldOfFrame (e : Se) (f : Frame) :
    (toldOfFrame e f).filterMap Notice.report?
      = reportsOf (swapEvents e f)
        ++ (List.finRange 16).flatMap (fun i => reportsOf ((swapped e f).axisNotices f i))
        ++ (swapped e f).active.ownedSlots.flatMap (fun id => reportsOf (actionEvents f id))
        ++ reportsOf ((e.evaluated f).statusNotices f) := by
  have hend : [Notice.count .samplesEvaluated].filterMap Notice.report? = [] := rfl
  rw [toldOfFrame, List.filterMap_append, hend, List.append_nil]
  show reportsOf (e.frameNotices f) = _
  rw [frameNotices_eq, reportsOf_append, reportsOf_append, reportsOf_append, reportsOf_flatMap, reportsOf_flatMap]

/-- The subject of a report names its axis. -/
theorem axis_of_subject {i j : Fin 16} (h : BitVec.ofNat 8 i.val = BitVec.ofNat 8 j.val) : i = j := by
  have hn := congrArg BitVec.toNat h
  rw [BitVec.toNat_ofNat, BitVec.toNat_ofNat] at hn
  omega

theorem axisLostReport_injective : Function.Injective axisLostReport :=
  fun _ _ h => axis_of_subject (congrArg Report.subject h)

/-- A list without its repetitions has none. -/
theorem nodup_eraseDups {α : Type} [BEq α] [LawfulBEq α] (l : List α) : l.eraseDups.Nodup := by
  induction h : l.length using Nat.strong_induction_on generalizing l with
  | _ n ih =>
    cases l with
    | nil => exact List.nodup_nil
    | cons a rest =>
      rw [List.eraseDups_cons, List.nodup_cons, List.mem_eraseDups]
      refine ⟨by simp, ih _ ?_ _ rfl⟩
      rw [← h, List.length_cons]
      exact Nat.lt_succ_of_le (List.length_filter_le _ _)

/-- What an axis reports of a frame: of its source slot, or with its own index as subject. -/
def AxisReport (b : Bank) (i : Fin 16) (r : Report) : Prop :=
  (r.code = .slotType ∧ ∃ d, b.axes[i] = some d ∧ r.subject = d.source)
    ∨ (r.code ≠ .slotType ∧ r.code ≠ .actionSlotMissing ∧ r.subject = BitVec.ofNat 8 i.val)

theorem axisReport_lost (b : Bank) (i : Fin 16) : AxisReport b i (axisLostReport i) := .inr ⟨nofun, nofun, rfl⟩

theorem axisReport_of_sampleReport {e : Se} {f : Frame} {i : Fin 16} {r : Report} (h : SampleReport e f i r) :
    AxisReport e.active i r ∧ r.code ≠ .axisLost := by
  obtain ⟨d, hd, -, hr⟩ := h
  rcases (mem_sampleReports_iff d i _ r).mp hr with ⟨-, rfl⟩ | ⟨-, rfl⟩ | ⟨m, -, rfl⟩
  · exact ⟨.inl ⟨rfl, d, hd, rfl⟩, nofun⟩
  · exact ⟨.inr ⟨nofun, nofun, rfl⟩, nofun⟩
  · exact ⟨.inr ⟨nofun, nofun, rfl⟩, nofun⟩

/-- In a valid bank a report is of one axis. -/
theorem axisReport_unique {b : Bank} (hb : b.validate = none) {i j : Fin 16} {r : Report} (hi : AxisReport b i r)
    (hj : AxisReport b j r) : i = j := by
  rcases hi with ⟨hcode, c, hc, hcs⟩ | ⟨hcode, -, hsubject⟩
  · rcases hj with ⟨-, d, hd, hds⟩ | ⟨hcode', -, -⟩
    · exact axesSound_of_valid hb i j c d hc hd (hcs.symm.trans hds)
    · exact absurd hcode hcode'
  · rcases hj with ⟨hcode', -, -⟩ | ⟨-, -, hsubject'⟩
    · exact absurd hcode' hcode
    · exact axis_of_subject (hsubject.symm.trans hsubject')

/-- What a slot id reports of a frame has the id as subject (R89, R90, R92). -/
def IdReport (id : Byte) (r : Report) : Prop :=
  r.subject = id ∧ (r.code = .slotType ∨ r.code = .actionSlotMissing)

/-- In a valid bank no axis reports what a slot id does that is no source slot. -/
theorem not_idReport_of_axisReport {b : Bank} {i : Fin 16} {id : Byte} {r : Report}
    (hid : ∀ (i : Fin 16) (d : AxisDef), b.axes[i] = some d → d.source ≠ id) (h : AxisReport b i r) :
    ¬ IdReport id r := by
  rintro ⟨hsubject, hcode⟩
  rcases h with ⟨-, d, hd, hs⟩ | ⟨hcode', hcode'', -⟩
  · exact hid i d hd (hs.symm.trans hsubject)
  · exact hcode.elim hcode' hcode''

theorem mem_reportsOf_axisNotices {e : Se} {f : Frame} {i : Fin 16} {r : Report}
    (h : r ∈ reportsOf (e.axisNotices f i)) :
    SampleReport e f i r ∨ (LostByFrame e f i ∧ r = axisLostReport i) := by
  rw [mem_reportsOf_iff, mem_axisNotices_iff] at h
  rcases h with ⟨r', hr, h⟩ | ⟨hl, h⟩
  · exact .inl (Notice.fault.inj h ▸ hr)
  · exact .inr ⟨hl, by simpa [mem_lostNotices_iff] using h⟩

theorem axisReport_of_mem {e : Se} {f : Frame} {i : Fin 16} {r : Report} (h : r ∈ reportsOf (e.axisNotices f i)) :
    AxisReport e.active i r := by
  rcases mem_reportsOf_axisNotices h with h | ⟨-, rfl⟩
  · exact (axisReport_of_sampleReport h).1
  · exact axisReport_lost _ i

theorem idReport_of_mem {f : Frame} {id : Byte} {r : Report} (h : r ∈ reportsOf (actionEvents f id)) :
    IdReport id r := by
  rw [mem_reportsOf_iff, mem_actionEvents_iff] at h
  rcases h with ⟨-, h | h⟩ | ⟨o, -, -, h⟩
  · cases h
  · cases h
    exact ⟨rfl, .inr rfl⟩
  · cases h
    exact ⟨rfl, .inl rfl⟩

theorem statusReport_of_mem {e : Se} {f : Frame} {r : Report} (h : r ∈ reportsOf (e.statusNotices f)) :
    ∃ id, e.active.statusSlot = some id ∧ IdReport id r := by
  rw [mem_reportsOf_iff, mem_statusNotices_iff] at h
  obtain ⟨r', ⟨id, o, hid, -, -, rfl⟩, h⟩ := h
  cases h
  exact ⟨id, hid, rfl, .inl rfl⟩

/-- The swap reports the axes that it takes into LOST, each once (R115). -/
theorem reportsOf_swapEvents (e : Se) (f : Frame) :
    ∃ lost : List (Fin 16), lost.Nodup ∧ (∀ i ∈ lost, LostBySwap e f i)
      ∧ reportsOf (swapEvents e f) = lost.map axisLostReport := by
  unfold swapEvents LostBySwap
  split
  · next hdue =>
    refine ⟨(List.finRange 16).filter (fun i => lostAtSwap e.active.axes[i] e.staged.axes[i] e.axisRecords[i]),
      (List.nodup_finRange 16).filter _, fun i hi => ⟨hdue, (List.mem_filter.mp hi).2⟩, ?_⟩
    exact reports_toldOfLost _
  · exact ⟨[], List.nodup_nil, nofun, rfl⟩

/-- An axis that the swap takes into LOST is in LOST when the frame's misses are counted (R115, R117). -/
theorem not_lostByFrame_of_lostBySwap {e : Se} {f : Frame} {i : Fin 16} (h : LostBySwap e f i) :
    ¬ LostByFrame (swapped e f) f i := by
  obtain ⟨hdue, hlost⟩ := h
  have hswap : swapped e f = e.swap := if_pos hdue
  rintro ⟨hbefore, -⟩
  refine hbefore ?_
  rw [hswap, swap_axisRecords]
  unfold lostAtSwap at hlost
  split at hlost
  · next o n ho hn =>
    obtain ⟨hcont, hunder⟩ := Bool.and_eq_true_iff.mp hlost
    simp only [swappedAxis, ho, hn, hcont, hunder, if_true]
  · cases hlost

/-- One axis reports its sample at most once, and that it enters LOST once. -/
theorem nodup_reportsOf_axisNotices (e : Se) (f : Frame) (i : Fin 16) : (reportsOf (e.axisNotices f i)).Nodup := by
  by_cases hb : (∃ d, e.active.axes[i] = some d) ∧ e.axisRecords[i].state ≠ .unbound
  · obtain ⟨⟨d, hd⟩, hs⟩ := hb
    have hsample : reportsOf ((d.sampleReports i (d.sample f e.axisRecords[i])).map (fun r => [.fault r]))
        = d.sampleReports i (d.sample f e.axisRecords[i]) := by
      cases d.sample f e.axisRecords[i] <;> rfl
    have honce : (d.sampleReports i (d.sample f e.axisRecords[i])).Nodup := by
      cases d.sample f e.axisRecords[i] <;> simp [AxisDef.sampleReports]
    rw [axisNotices_of_some hd hs, reportsOf_append, hsample]
    refine honce.append ?_ ?_
    · split
      · exact List.nodup_singleton _
      · exact List.nodup_nil
    · intro r hr hl
      have hcode := (axisReport_of_sampleReport ⟨d, hd, hs, hr⟩).2
      split at hl
      · obtain rfl : r = axisLostReport i := List.mem_singleton.mp hl
        exact hcode rfl
      · cases hl
  · rw [axisNotices_of_unbound f hb]
    exact List.nodup_nil

theorem nodup_reportsOf_actionEvents (f : Frame) (id : Byte) : (reportsOf (actionEvents f id)).Nodup := by
  cases ho : findSlot f id with
  | none =>
    rw [actionEvents_of_absent ho]
    exact List.nodup_singleton _
  | some o =>
    rw [actionEvents_of_found ho]
    split
    · exact List.nodup_nil
    · exact List.nodup_singleton _

theorem nodup_reportsOf_statusNotices (e : Se) (f : Frame) : (reportsOf (e.statusNotices f)).Nodup := by
  rcases statusNotices_eq e f with ⟨r, -, h⟩ | ⟨-, h⟩ <;> rw [h]
  · exact List.nodup_singleton _
  · exact List.nodup_nil

/-- While the ACTIVE bank is valid a frame makes each fault report once. -/
theorem nodup_reports_toldOfFrame {e : Se} {f : Frame} (hb : (swapped e f).active.validate = none) :
    ((toldOfFrame e f).filterMap Notice.report?).Nodup := by
  rw [reports_toldOfFrame]
  obtain ⟨lost, hlost, hswap, hreports⟩ := reportsOf_swapEvents e f
  have haxes : ((List.finRange 16).flatMap (fun i => reportsOf ((swapped e f).axisNotices f i))).Nodup := by
    refine List.nodup_flatMap.mpr ⟨fun i _ => nodup_reportsOf_axisNotices _ f i,
      (List.nodup_finRange 16).imp (fun hne r hi hj => ?_)⟩
    exact hne (axisReport_unique hb (axisReport_of_mem hi) (axisReport_of_mem hj))
  have hslots : ((swapped e f).active.ownedSlots.flatMap (fun id => reportsOf (actionEvents f id))).Nodup := by
    refine List.nodup_flatMap.mpr ⟨fun id _ => nodup_reportsOf_actionEvents f id,
      (nodup_eraseDups _).imp (fun hne r hi hj => ?_)⟩
    exact hne ((idReport_of_mem hi).1.symm.trans (idReport_of_mem hj).1)
  have haxis {r : Report} (h : r ∈ reportsOf (swapEvents e f)
      ++ (List.finRange 16).flatMap (fun i => reportsOf ((swapped e f).axisNotices f i))) :
      ∃ i, AxisReport (swapped e f).active i r := by
    rcases List.mem_append.mp h with h | h
    · rw [hreports] at h
      obtain ⟨i, -, rfl⟩ := List.mem_map.mp h
      exact ⟨i, axisReport_lost _ i⟩
    · obtain ⟨i, -, hi⟩ := List.mem_flatMap.mp h
      exact ⟨i, axisReport_of_mem hi⟩
  have hslot {r : Report} (h : r ∈ (swapped e f).active.ownedSlots.flatMap (fun id => reportsOf (actionEvents f id))) :
      ∃ id, Owned (swapped e f).active id ∧ IdReport id r := by
    obtain ⟨id, hid, hr⟩ := List.mem_flatMap.mp h
    exact ⟨id, (mem_ownedSlots_iff _ id).mp hid, idReport_of_mem hr⟩
  refine ((List.Nodup.append ?_ haxes ?_).append hslots ?_).append (nodup_reportsOf_statusNotices _ f) ?_
  · rw [hreports]
    exact hlost.map axisLostReport_injective
  · intro r hr hr'
    rw [hreports] at hr
    obtain ⟨i, hi, rfl⟩ := List.mem_map.mp hr
    obtain ⟨j, -, hj⟩ := List.mem_flatMap.mp hr'
    rcases mem_reportsOf_axisNotices hj with hj | ⟨hj, heq⟩
    · exact (axisReport_of_sampleReport hj).2 rfl
    · exact not_lostByFrame_of_lostBySwap (hswap i hi) (axisLostReport_injective heq ▸ hj)
  · intro r hr hr'
    obtain ⟨i, hi⟩ := haxis hr
    obtain ⟨id, hid, hr'⟩ := hslot hr'
    exact not_idReport_of_axisReport (owned_of_valid hb hid).1 hi hr'
  · intro r hr hr'
    obtain ⟨id, hid, hsubject, hcode⟩ := statusReport_of_mem hr'
    rw [evaluated_active] at hid
    rcases List.mem_append.mp hr with hr | hr
    · obtain ⟨i, hi⟩ := haxis hr
      exact not_idReport_of_axisReport (fun j d hd hs => statusSound_of_valid hb j d hd (hs ▸ hid)) hi
        ⟨hsubject, hcode⟩
    · obtain ⟨id', hid', hsubject', -⟩ := hslot hr
      exact (owned_of_valid hb hid').2 (hid.trans (congrArg some (hsubject.symm.trans hsubject')))

/-! ### All that an evaluation tells the MU -/

/-- ACTION_SLOTS_MISSING is counted once for each owned slot id that is absent (R89). -/
theorem count_actionSlotsMissing (e : Se) (f : Frame) :
    (toldOfFrame e f).count (.count .actionSlotsMissing)
      = ((swapped e f).active.ownedSlots.filter (fun id => (findSlot f id).isNone)).length := by
  have hslots (ids : List Byte) : ((ids.flatMap (actionEvents f)).flatten).count (.count .actionSlotsMissing)
      = (ids.filter (fun id => (findSlot f id).isNone)).length := by
    induction ids with
    | nil => rfl
    | cons id rest ih =>
      rw [List.flatMap_cons, List.flatten_append, List.count_append, ih, List.filter_cons]
      cases ho : findSlot f id with
      | none =>
        rw [actionEvents_of_absent ho]
        exact Nat.add_comm 1 _
      | some o =>
        have hnone : .count .actionSlotsMissing ∉ (actionEvents f id).flatten := by
          rw [mem_actionEvents_iff, ho]
          simp
        rw [List.count_eq_zero.mpr hnone]
        exact Nat.zero_add _
  have hswap : .count .actionSlotsMissing ∉ (swapEvents e f).flatten := by
    rw [mem_swapEvents_iff]
    simp [mem_lostNotices_iff]
  have haxes : .count .actionSlotsMissing
      ∉ ((List.finRange 16).flatMap ((swapped e f).axisNotices f)).flatten := by
    simp only [mem_flatten_flatMap, mem_axisNotices_iff, mem_lostNotices_iff]
    simp
  have hstatus : .count .actionSlotsMissing ∉ ((e.evaluated f).statusNotices f).flatten := by
    rw [mem_statusNotices_iff]
    simp
  rw [toldOfFrame, frameNotices_eq, List.flatten_append, List.flatten_append, List.flatten_append, List.count_append,
    List.count_append, List.count_append, List.count_append, hslots, List.count_eq_zero.mpr hswap,
    List.count_eq_zero.mpr haxes, List.count_eq_zero.mpr hstatus]
  simp

/-- Only an axis that enters LOST makes the report AXIS_LOST (R63). -/
theorem axisLost_report_iff (e : Se) (f : Frame) :
    (∃ r, .fault r ∈ toldOfFrame e f ∧ r.code = .axisLost) ↔ ∃ i, EntersLost e f i := by
  simp only [fault_mem_toldOfFrame_iff]
  constructor
  · rintro ⟨r, ⟨i, hi, -⟩ | ⟨i, hi⟩ | ⟨id, -, ⟨-, rfl⟩ | ⟨o, -, -, rfl⟩⟩ | ⟨id, o, -, -, -, rfl⟩, hcode⟩
    · exact ⟨i, hi⟩
    · exact absurd hcode (axisReport_of_sampleReport hi).2
    · cases hcode
    · cases hcode
    · cases hcode
  · rintro ⟨i, hi⟩
    exact ⟨_, .inl ⟨i, hi, rfl⟩, rfl⟩

/-- Settles O48: the evaluation tells `toldOfFrame`, whose notices the lemmas above name one by one. -/
theorem evaluationReportsWhatItFound : Obligations.EvaluationReportsWhatItFound := by
  intro s f handed hev _
  have ⟨hheld, _, _⟩ := hev
  obtain ⟨mu, onWay, lag, n, ht⟩ := evaluate_eq s f
  have hse : (s.evaluate f).se = s.se.evaluated f := by rw [ht]
  refine ⟨s.evaluate f, toldOfFrame s.se f, exec_sampleEvaluation hev, tells_evaluate hheld f, ?_⟩
  rw [hse, evaluated_active]
  refine ⟨fun r => ?_, nodup_reports_toldOfFrame, ?_, commitDone_mem_toldOfFrame_iff _ _,
    linkChange_notMem_toldOfFrame _ _, fun c => count_mem_toldOfFrame, count_samplesEvaluated _ _,
    (swapped s.se f).active.ownedSlots.filter (fun id => (findSlot f id).isNone), (nodup_eraseDups _).filter _,
    fun id => ?_, count_actionSlotsMissing _ _⟩
  · simp only [evaluated_axisRecords]
    rw [fault_mem_toldOfFrame_iff]
    constructor
    · rintro (⟨i, hi, rfl⟩ | ⟨i, d, hd, hs, hr⟩ | ⟨id, hid, ⟨ho, rfl⟩ | ⟨o, ho, htype, rfl⟩⟩ | hstatus)
      · exact .inr (.inr (.inr (.inr ⟨i, rfl, hi⟩)))
      · exact .inr (.inr (.inr (.inl ⟨i, d, _, hd, rfl, hs, (mem_sampleReports_iff _ _ _ _).mp hr⟩)))
      · exact .inl ⟨id, hid, ho, rfl⟩
      · exact .inr (.inl ⟨id, o, hid, ho, htype, rfl⟩)
      · exact .inr (.inr (.inl hstatus))
    · rintro (⟨id, hid, ho, rfl⟩ | ⟨id, o, hid, ho, htype, rfl⟩ | hstatus | ⟨i, d, x, hd, rfl, hs, hr⟩ | ⟨i, rfl, hi⟩)
      · exact .inr (.inr (.inl ⟨id, hid, .inl ⟨ho, rfl⟩⟩))
      · exact .inr (.inr (.inl ⟨id, hid, .inr ⟨o, ho, htype, rfl⟩⟩))
      · exact .inr (.inr (.inr hstatus))
      · exact .inr (.inl ⟨i, d, hd, hs, (mem_sampleReports_iff _ _ _ _).mpr hr⟩)
      · exact .inl ⟨i, hi, rfl⟩
  · rw [axisLost_mem_toldOfFrame_iff, axisLost_report_iff]
  · rw [List.mem_filter, mem_ownedSlots_iff, Option.isNone_iff_eq_none]

end Sys2Proof.Proofs

/-!
PROOFS. What the ACTION slots of the frame handed back carry: each owned bit the last output of its track.
-/
namespace Sys2Proof.Proofs

open Sys2Proof.Machine Sys2Proof.Claims

/-! ### Slot values of a frame (R8, R10, R15, R16) -/

/-- A word is read from its four bytes. -/
theorem wordAt_congr {f g : Frame} {i : Nat} (h : ∀ k, i ≤ k → k < i + 4 → byteAt g k = byteAt f k) :
    wordAt g i = wordAt f i := by
  rw [wordAt, wordAt, h i (by omega) (by omega), h (i + 1) (by omega) (by omega), h (i + 2) (by omega) (by omega),
    h (i + 3) (by omega) (by omega)]

/-- A slot of a valid SAMPLE frame ends before its CRC (Table 1-2). -/
theorem findSlot_end_le {f : Frame} {id : Byte} {o : Nat} (hf : classify f = .sample true)
    (ho : findSlot f id = some o) : o + 10 ≤ f.length := by
  obtain ⟨-, -, -, hlen⟩ := (classify_eq_valid_sample_iff f).mp hf
  obtain ⟨i, hi, rfl, -⟩ := findSlot_some f id o ho
  change _ = 10 + 6 * slotCount f at hlen
  omega

/-- The first slots of two ids do not overlap. -/
theorem findSlot_disjoint {f : Frame} {id id' : Byte} {o o' : Nat} (ho : findSlot f id = some o)
    (ho' : findSlot f id' = some o') (hne : id' ≠ id) : o + 6 ≤ o' ∨ o' + 6 ≤ o := by
  obtain ⟨i, -, rfl, hid, -⟩ := findSlot_some f id o ho
  obtain ⟨j, -, rfl, hid', -⟩ := findSlot_some f id' o' ho'
  have hij : i ≠ j := fun h => hne (hid'.symm.trans (h ▸ hid))
  omega

theorem slotValue_putSlotValue_same {g : Frame} {o : Nat} (h : o + 6 ≤ g.length) (w : Word) :
    slotValue (putSlotValue g o w) o = w :=
  wordAt_putWord g (o + 2) w (by omega)

theorem slotValue_putSlotValue_of_disjoint {o o' : Nat} (h : o + 6 ≤ o' ∨ o' + 6 ≤ o) (g : Frame) (w : Word) :
    slotValue (putSlotValue g o' w) o = slotValue g o :=
  wordAt_congr fun k hlo hhi => byteAt_putWord_of_outside g (o' + 2) k w (by omega)

/-- A fresh CRC changes no slot value (R16). -/
theorem slotValue_resealed {g : Frame} {o : Nat} (h : o + 10 ≤ g.length) :
    slotValue (resealed g) o = slotValue g o :=
  wordAt_congr fun k _ hhi => byteAt_resealed g k (by omega)

/-! ### The ACTION slots (R87, R88) -/

/-- The work for one owned slot id puts its bits into its own slot of type ACTION, and leaves every other slot value
(R88). -/
theorem ownSlot_slotValue {e : Se} {f : Frame} {w : SlotWork} {P : Byte → Nat → Prop} (hf : classify f = .sample true)
    (hw : DiffersInValues f w.frame P) {id : Byte} {o : Nat} (ho : findSlot f id = some o)
    (htype : byteAt f (o + 1) = 2#8) (id' : Byte) :
    slotValue (e.ownSlot w id').frame o
      = if id' = id then e.ownedValue id (slotValue w.frame o) else slotValue w.frame o := by
  unfold Se.ownSlot
  rw [hw.findSlot_eq id']
  by_cases hid : id' = id
  · subst hid
    have hrole : slotRole w.frame o = .action := (hw.slotRole_eq ho).trans ((slotRole_eq_action_iff f o).mpr htype)
    have hend := findSlot_end_le hf ho
    simp only [ho, hrole, if_true]
    exact slotValue_putSlotValue_same (by rw [hw.1]; omega) _
  · rw [if_neg hid]
    cases ho' : findSlot f id' with
    | none => rfl
    | some o' =>
      cases hrole : slotRole w.frame o' with
      | action => simp only [hrole, slotValue_putSlotValue_of_disjoint (findSlot_disjoint ho ho' hid)]
      | position => simp only [hrole]
      | status => simp only [hrole]
      | opaqueRole => simp only [hrole]

/-- The work for slot ids, each once, puts its bits into the slot of each of them that is of type ACTION. -/
theorem foldl_ownSlot_slotValue {e : Se} {f : Frame} (hf : classify f = .sample true) {id : Byte} {o : Nat}
    (ho : findSlot f id = some o) (htype : byteAt f (o + 1) = 2#8) {ids : List Byte} (honce : ids.Nodup)
    (howned : ∀ x ∈ ids, Owned e.active x) {w : SlotWork}
    (hw : DiffersInValues f w.frame (ActionWritable e.active f)) (hkept : w.wrote = false → w.frame = f) :
    slotValue (ids.foldl e.ownSlot w).frame o
      = if id ∈ ids then e.ownedValue id (slotValue w.frame o) else slotValue w.frame o := by
  induction ids generalizing w with
  | nil => rfl
  | cons x rest ih =>
    obtain ⟨hx, hrest⟩ := List.nodup_cons.mp honce
    obtain ⟨hxo, hresto⟩ := List.forall_mem_cons.mp howned
    obtain ⟨hw', hkept'⟩ := differsInValues_ownSlot hxo hw hkept
    rw [List.foldl_cons, ih hrest hresto hw' hkept', ownSlot_slotValue hf hw ho htype]
    by_cases hid : x = id
    · subst hid
      simp [hx]
    · simp [hid, Ne.symm hid]

/-- The ACTION writes put the owned bits into the slot of an owned id (R88). -/
theorem writeActions_slotValue {e : Se} {f : Frame} (hf : classify f = .sample true) {id : Byte} {o : Nat}
    (hid : Owned e.active id) (ho : findSlot f id = some o) (htype : byteAt f (o + 1) = 2#8) :
    slotValue (e.writeActions f).frame o = e.ownedValue id (slotValue f o) :=
  (foldl_ownSlot_slotValue hf ho htype (nodup_eraseDups _) (fun x => (mem_ownedSlots_iff _ x).mp)
    (differsInValues_refl f _) (fun _ => rfl)).trans (if_pos ((mem_ownedSlots_iff _ id).mpr hid))

/-- In the frame handed back the slot of an owned id carries the owned bits; the status slot is another one (R88, R104,
R93). -/
theorem handedBackFrame_slotValue {s : State} {f : Frame} (hf : classify f = .sample true)
    (hv : (swapped s.se f).active.validate = none) {id : Byte} {o : Nat} (hid : Owned (s.se.evaluated f).active id)
    (ho : findSlot f id = some o) (htype : byteAt f (o + 1) = 2#8) :
    slotValue (handedBackFrame s f) o = (s.se.evaluated f).ownedValue id (slotValue f o) := by
  rw [← writeActions_slotValue hf hid ho htype]
  obtain ⟨hw, hkept⟩ := differsInValues_writeActions (s.se.evaluated f) f
  have hend : o + 10 ≤ ((s.se.evaluated f).writeActions f).frame.length := by
    rw [hw.1]
    exact findSlot_end_le hf ho
  unfold handedBackFrame
  split
  · next o' ho' =>
    obtain ⟨id', hstatus, hslot, -⟩ := statusOffset_eq_some ho'
    rw [hw.findSlot_eq] at hslot
    have hne : id' ≠ id := fun h => (owned_of_valid hv hid).2 (h ▸ hstatus)
    rw [slotValue_resealed (by rwa [putSlotValue_length]),
      slotValue_putSlotValue_of_disjoint (findSlot_disjoint ho hslot hne)]
  · unfold SlotWork.leaving
    split
    · exact slotValue_resealed hend
    · next hwrote => rw [hkept (by simpa using hwrote)]

/-! ### The bits of an owned slot (R86, R87, R88) -/

/-- A bit put into a word is that bit, and every other one stays (R10). -/
theorem putBit_getLsbD (w : Word) (n m : Fin 32) (value : Bool) :
    (putBit w n value).getLsbD m.val = if n = m then value else w.getLsbD m.val := by
  have hone : (1#32 <<< n.val).getLsbD m.val = decide (n = m) := by
    rw [← BitVec.twoPow_eq, BitVec.getLsbD_twoPow]
    simp [Fin.ext_iff]
  cases value with
  | false =>
    rw [putBit, if_neg Bool.false_ne_true, BitVec.getLsbD_and, BitVec.getLsbD_not, hone]
    by_cases h : n = m <;> simp [h]
  | true =>
    rw [putBit, if_pos rfl, BitVec.getLsbD_or, hone]
    by_cases h : n = m <;> simp [h]

/-- The enabled track at index `k` owns bit `n` of the slot id (R87). -/
def OwnsBit (b : Bank) (id : Byte) (n : Fin 32) (k : Fin 32) : Prop :=
  ∃ d, b.enabledTrack k = some d ∧ d.slot = id ∧ d.bit = n

/-- One track's share in the value of an owned slot (R88). -/
def putOwned (e : Se) (id : Byte) (w : Word) (k : Fin 32) : Word :=
  match e.active.enabledTrack k with
  | some d => if d.slot = id then putBit w d.bit e.trackRecords[k].output else w
  | none => w

theorem ownedValue_eq_foldl (e : Se) (id : Byte) (w : Word) :
    e.ownedValue id w = (List.finRange 32).foldl (putOwned e id) w := rfl

theorem putOwned_of_owns {e : Se} {id : Byte} {n k : Fin 32} (h : OwnsBit e.active id n k) (w : Word) :
    (putOwned e id w k).getLsbD n.val = e.trackRecords[k].output := by
  obtain ⟨d, hd, rfl, rfl⟩ := h
  simp only [putOwned, hd, if_true, putBit_getLsbD]

theorem putOwned_of_not_owns {e : Se} {id : Byte} {n k : Fin 32} (h : ¬ OwnsBit e.active id n k) (w : Word) :
    (putOwned e id w k).getLsbD n.val = w.getLsbD n.val := by
  unfold putOwned
  split
  · next d hd =>
    split
    · next hslot => rw [putBit_getLsbD, if_neg fun hbit => h ⟨d, hd, hslot, hbit⟩]
    · rfl
  · rfl

/-- A bit whose owners among some tracks agree has their output behind them, provided that it has an owner or had the
value before. -/
theorem foldl_putOwned {e : Se} {id : Byte} {n : Fin 32} {value : Bool} {l : List (Fin 32)} {w : Word}
    (hagree : ∀ k ∈ l, OwnsBit e.active id n k → e.trackRecords[k].output = value)
    (hvalue : w.getLsbD n.val = value ∨ ∃ k ∈ l, OwnsBit e.active id n k) :
    (l.foldl (putOwned e id) w).getLsbD n.val = value := by
  induction l generalizing w with
  | nil => simpa using hvalue
  | cons k rest ih =>
    obtain ⟨hk, hrest⟩ := List.forall_mem_cons.mp hagree
    rw [List.foldl_cons]
    refine ih hrest ?_
    by_cases how : OwnsBit e.active id n k
    · exact .inl ((putOwned_of_owns how w).trans (hk how))
    · rw [putOwned_of_not_owns how]
      simpa [how] using hvalue

/-- In a valid bank a bit of a slot id has one owner (R104). -/
theorem ownsBit_unique {b : Bank} (h : b.validate = none) {id : Byte} {n j k : Fin 32} (hj : OwnsBit b id n j)
    (hk : OwnsBit b id n k) : j = k := by
  have hlt {j k : Fin 32} (hj : OwnsBit b id n j) (hk : OwnsBit b id n k) : ¬ j < k := by
    intro hlt
    obtain ⟨d, hd, hds, hdb⟩ := hj
    obtain ⟨d', hd', hds', hdb'⟩ := hk
    obtain ⟨-, -, htracks⟩ := validate_eq_none h
    have hfault := htracks k
    have hclash : ∃ u, b.bitClash k d' = some u := by
      rw [← Option.isSome_iff_exists, Bank.bitClash, List.find?_isSome]
      exact ⟨j, List.mem_finRange j, by simp [hlt, hd, hds, hds', hdb, hdb']⟩
    obtain ⟨u, hu⟩ := hclash
    unfold Bank.trackFault at hfault
    simp only [hd', hu] at hfault
    split at hfault
    · cases hfault
    · split at hfault
      · cases hfault
      · split at hfault <;> cases hfault
  exact le_antisymm (not_lt.mp (hlt hk hj)) (not_lt.mp (hlt hj hk))

/-- An owned bit is the last output of its track (R88). -/
theorem ownedValue_of_owns {e : Se} (hv : e.active.validate = none) {id : Byte} {n k : Fin 32}
    (h : OwnsBit e.active id n k) (w : Word) : (e.ownedValue id w).getLsbD n.val = e.trackRecords[k].output :=
  foldl_putOwned (fun j _ hj => by rw [ownsBit_unique hv hj h]) (.inr ⟨k, List.mem_finRange k, h⟩)

/-- A bit that no track owns is as it arrived (R88). -/
theorem ownedValue_of_not_owns {e : Se} {id : Byte} {n : Fin 32} (h : ∀ k, ¬ OwnsBit e.active id n k) (w : Word) :
    (e.ownedValue id w).getLsbD n.val = w.getLsbD n.val :=
  foldl_putOwned (fun k _ hk => absurd hk (h k)) (.inl rfl)

/-- Settles O46: the slot of an owned id by the ACTION writes, each of its bits by the one track that owns it or none. -/
theorem ownedBitsCarryTrackOutputs : Obligations.OwnedBitsCarryTrackOutputs := by
  intro s f handed hev hf hv
  obtain ⟨mu, onWay, lag, n, ht⟩ := evaluate_eq s f
  have hse : (s.evaluate f).se = s.se.evaluated f := by rw [ht]
  have hv' : (s.se.evaluated f).active.validate = none := by rwa [evaluated_active]
  refine ⟨s.evaluate f, handedBackFrame s f, exec_sampleEvaluation hev, by rw [ht]; rfl,
    fun id o hid ho htype => ?_⟩
  rw [hse] at hid ⊢
  have hvalue : wordAt (handedBackFrame s f) (o + 2) = (s.se.evaluated f).ownedValue id (wordAt f (o + 2)) :=
    handedBackFrame_slotValue hf hv hid ho htype
  rw [hvalue]
  refine ⟨fun k d hd hslot => ownedValue_of_owns hv' ⟨d, hd, hslot, rfl⟩ _, fun n hfree => ?_⟩
  exact ownedValue_of_not_owns (fun k ⟨d, hd, hslot, hbit⟩ => hfree k d hd hslot hbit) _

end Sys2Proof.Proofs

/-!
PROOFS. What the STATUS slot of the frame handed back carries: the status word behind the frame's own reports.
-/
namespace Sys2Proof.Proofs

open Sys2Proof.Machine Sys2Proof.Claims

/-! ### What is on its way when the status word is composed (R92, R190) -/

/-- Picking a notice leaves the others in their order. -/
theorem pickNotice_sublist {l rest : List Event} {n : Nat} {x : Notice} (h : pickNotice l n = some (x, rest)) :
    (rest.flatMap Event.notices).Sublist (l.flatMap Event.notices) := by
  induction l generalizing n rest with
  | nil => cases h
  | cons e l ih =>
    rw [List.flatMap_cons]
    unfold pickNotice at h
    split at h
    · obtain ⟨-, rfl⟩ := Prod.mk.inj (Option.some.inj h)
      rw [List.flatMap_append, flatMap_notices_without]
      exact (List.eraseIdx_sublist _ _).append_right _
    · obtain ⟨⟨y, rest'⟩, hp, heq⟩ := Option.map_eq_some_iff.mp h
      obtain ⟨rfl, rfl⟩ := Prod.mk.inj heq
      rw [List.flatMap_cons]
      exact (ih hp).append_left _

/-- Taking what is on its way puts nothing new there. -/
theorem deliverBy_sublist (lag : List Nat) (s : State) :
    ((s.deliverBy lag).onWay.flatMap Event.notices).Sublist (s.onWay.flatMap Event.notices) := by
  induction lag generalizing s with
  | nil =>
    unfold State.deliverBy
    split
    · exact .refl _
    · rw [takeAll_onWay]
      exact List.nil_sublist _
  | cons k rest ih =>
    rw [State.deliverBy]
    split
    · exact .refl _
    · cases hp : pickNotice s.onWay k with
      | none => exact .refl _
      | some p => exact (ih _).trans (pickNotice_sublist hp)

theorem deliver_sublist (s : State) :
    (s.deliver.onWay.flatMap Event.notices).Sublist (s.onWay.flatMap Event.notices) := by
  unfold State.deliver
  split
  · exact .refl _
  · exact deliverBy_sublist s.lag s

/-- What is on its way once the status word is composed was on its way before the frame (R92). -/
theorem beforeStatus_onWay (s : State) (f : Frame) : (s.beforeStatus f).onWay = s.deliver.onWay := by
  rw [State.beforeStatus, takeAll_onWay]

/-! ### The status word behind increments (R192, R199) -/

/-- Increments change the counters of the MU alone (R192). -/
theorem foldl_take_counts (cycle : Option Half) (l : List Notice) (m : Mu) (h : ∀ n ∈ l, n.isCount = true) :
    ∃ counters, l.foldl (fun m n => m.take cycle n) m = { m with counters := counters } := by
  induction l generalizing m with
  | nil => exact ⟨m.counters, rfl⟩
  | cons a rest ih =>
    obtain ⟨ha, hrest⟩ := List.forall_mem_cons.mp h
    cases a with
    | count c => exact ih (m.count c) hrest
    | fault r => cases ha
    | latch c => cases ha

/-- The status word shows no counter (R199). -/
theorem statusWord_of_counters {s t : State} (hrpu : t.rpu = s.rpu) (hse : t.se = s.se)
    (hmu : ∃ counters, t.mu = { s.mu with counters := counters }) : t.statusWord = s.statusWord := by
  obtain ⟨counters, hmu⟩ := hmu
  unfold State.statusWord
  rw [hrpu, hse, hmu]
  rfl

/-- Increments that are sent with nothing else on its way leave the status word as it is. -/
theorem statusWord_sendEvents {s : State} (hheld : s.resetHeld = false) (hw : s.onWay = []) {l : List Event}
    (hl : ∀ n ∈ l.flatMap Event.notices, n.isCount = true) : (s.sendEvents l).statusWord = s.statusWord := by
  obtain ⟨taken, hmu, hperm, -⟩ := tells_sendEvents hheld l
  rw [hw] at hperm
  refine statusWord_of_counters (sendEvents_rpu s l) (sendEvents_se s l) ?_
  rw [hmu]
  exact foldl_take_counts _ _ _ fun n hn => hl n (hperm.subset (List.mem_append_left _ hn))

/-- What is sent behind a status word: the increments of the frame, SAMPLES_EVALUATED last (R92, R93). -/
def sentAfterStatus (e : Se) (f : Frame) : List Event :=
  countsLeft (e.frameNotices f) ++ [Event.whole [.count .samplesEvaluated]]

theorem isCount_of_sentAfterStatus {e : Se} {f : Frame} {n : Notice}
    (h : n ∈ (sentAfterStatus e f).flatMap Event.notices) : n.isCount = true := by
  rw [sentAfterStatus, List.flatMap_append, List.mem_append, flatMap_countsLeft] at h
  rcases h with h | h
  · exact (List.mem_filter.mp h).2
  · obtain rfl := List.mem_singleton.mp h
    rfl

/-! ### The STATUS slot (R92, R199, R201) -/

/-- The offset of the status slot is found in the frame with its ACTION slots written (R92). -/
theorem statusOffset_writeActions {e : Se} {f : Frame} {id : Byte} {o : Nat} (hid : e.active.statusSlot = some id)
    (ho : findSlot f id = some o) (htype : byteAt f (o + 1) = 3#8) :
    e.statusOffset (e.writeActions f).frame = some o := by
  obtain ⟨hw, -⟩ := differsInValues_writeActions e f
  have hrole : slotRole (e.writeActions f).frame o = .status :=
    (hw.slotRole_eq ho).trans ((slotRole_eq_status_iff f o).mpr htype)
  simp only [Se.statusOffset, hid, hw.findSlot_eq, ho, hrole, if_true]

/-- The part as it composes the status word, with a frame handed back. -/
def composed (s : State) (f g : Frame) : State := { s.beforeStatus f with rpu := s.rpu.handedBack g }

/-- The hand-back of a frame is not in the status word. -/
theorem composed_statusWord (s : State) (f g : Frame) :
    (composed s f g).statusWord = (s.beforeStatus f).statusWord := by
  have hrpu := beforeStatus_rpu s f
  unfold State.statusWord
  rw [hrpu]
  rfl

/-- With a STATUS slot to write, the evaluation sends increments alone once the word is composed and written (R92). -/
theorem evaluate_of_status {s : State} {f : Frame} {id : Byte} {o : Nat}
    (hid : (s.se.evaluated f).active.statusSlot = some id) (ho : findSlot f id = some o)
    (htype : byteAt f (o + 1) = 3#8) :
    s.evaluate f = State.sendEvents (composed s f (handedBackFrame s f)) (sentAfterStatus s.se f) := by
  have hoff := statusOffset_writeActions hid ho htype
  unfold State.evaluate handedBackFrame
  simp only [hoff]
  rfl

/-- The STATUS slot of the frame handed back holds the status word (R92). -/
theorem handedBackFrame_status {s : State} {f : Frame} (hf : classify f = .sample true) {id : Byte} {o : Nat}
    (hid : (s.se.evaluated f).active.statusSlot = some id) (ho : findSlot f id = some o)
    (htype : byteAt f (o + 1) = 3#8) : slotValue (handedBackFrame s f) o = (s.beforeStatus f).statusWord := by
  have hend := findSlot_end_le hf ho
  have hlen := (differsInValues_writeActions (s.se.evaluated f) f).1.1
  unfold handedBackFrame
  simp only [statusOffset_writeActions hid ho htype]
  rw [slotValue_resealed (by rw [putSlotValue_length, hlen]; exact hend),
    slotValue_putSlotValue_same (by rw [hlen]; omega)]

/-- Settles O47: the word is composed in `composed`, behind which the evaluation sends increments alone. -/
theorem statusSlotShowsThisFramesOutcome : Obligations.StatusSlotShowsThisFramesOutcome := by
  intro s f handed id o hev hf _ hid ho htype
  have ⟨hheld, _, _⟩ := hev
  have heq := evaluate_of_status (s := s) hid ho htype
  have hword : slotValue (handedBackFrame s f) o = (composed s f (handedBackFrame s f)).statusWord :=
    (handedBackFrame_status hf hid ho htype).trans (composed_statusWord s f _).symm
  refine ⟨s.evaluate f, handedBackFrame s f, composed s f (handedBackFrame s f), sentAfterStatus s.se f,
    exec_sampleEvaluation hev, heq, ?_, hword, fun e n he hn => ?_, ?_, fun hw => ?_⟩
  · rw [heq, sendEvents_rpu]
    rfl
  · have hcount := isCount_of_sentAfterStatus (List.mem_flatMap.mpr ⟨e, he, hn⟩)
    cases n with
    | count c => exact ⟨c, rfl⟩
    | fault r => cases hcount
    | latch c => cases hcount
  · show ((s.beforeStatus f).onWay.flatMap Event.notices).Sublist _
    rw [beforeStatus_onWay]
    exact deliver_sublist s
  · have hnone : (s.beforeStatus f).onWay = [] := by rw [beforeStatus_onWay, deliver_of_nothing_on_way s hw, hw]
    have hheld' : (s.beforeStatus f).resetHeld = false := (beforeStatus_resetHeld s f).trans hheld
    rw [heq]
    exact hword.trans
      (statusWord_sendEvents (s := composed s f _) hheld' hnone fun _ => isCount_of_sentAfterStatus).symm

end Sys2Proof.Proofs

/-!
PROOFS. What a window covers, and the output of a track: match, level, stretch and fail action.
-/
namespace Sys2Proof.Proofs

open Sys2Proof.Machine Sys2Proof.Claims

/-! ### Windows (R78, R79) -/

/-- A window covers from its on-position up to its off-position, on a ROTARY axis also across the end of the turn. -/
theorem covers_iff (w : Window) (kind : AxisKind) (x : Int) : w.covers kind x = true ↔
    (readPosition kind w.on < readPosition kind w.off ∧ readPosition kind w.on ≤ x ∧ x < readPosition kind w.off)
      ∨ (readPosition kind w.off < readPosition kind w.on
        ∧ kind = .rotary ∧ (readPosition kind w.on ≤ x ∨ x < readPosition kind w.off)) := by
  unfold Window.covers
  simp only
  split_ifs with hlt hgt
  · simp [hlt, not_lt.mpr hlt.le]
  · simp [hlt, hgt]
  · simp [hlt, hgt]

theorem covers_linear_iff (w : Window) (x : Int) :
    w.covers .linear x = true ↔ w.on.toInt ≤ x ∧ x < w.off.toInt := by
  rw [covers_iff]
  constructor
  · rintro (⟨-, h⟩ | ⟨-, hkind, -⟩)
    · exact h
    · cases hkind
  · rintro ⟨hon, hoff⟩
    exact .inl ⟨lt_of_le_of_lt hon hoff, hon, hoff⟩

theorem covers_rotary_iff (w : Window) (x : Int) : w.covers .rotary x = true ↔
    (w.on.toNat < w.off.toNat ∧ (w.on.toNat : Int) ≤ x ∧ x < w.off.toNat)
      ∨ (w.off.toNat < w.on.toNat ∧ ((w.on.toNat : Int) ≤ x ∨ x < w.off.toNat)) := by
  rw [covers_iff]
  simp only [readPosition, Nat.cast_lt, true_and]

/-! ### Match, level and output of a track (R82 to R85) -/

theorem qualifier_holds_iff (q : Qualifier) (dir : Direction) : q.holds dir = true ↔
    q = .any ∨ (q = .forward ∧ dir = .forward) ∨ (q = .reverse ∧ dir = .reverse) := by
  cases q <;> cases dir <;> simp [Qualifier.holds]

/-- A track matches when a window of its list covers the effective position and its qualifier holds (R82). -/
theorem matchesOn_iff (d : TrackDef) (axis : AxisDef) (ar : AxisRecord) (l : List Window) :
    d.matchesOn axis ar l = true ↔ (∃ w, w ∈ l ∧ w.covers axis.kind (axis.effective ar d.lead) = true)
      ∧ (d.qualifier = .any ∨ (d.qualifier = .forward ∧ ar.direction = .forward)
        ∨ (d.qualifier = .reverse ∧ ar.direction = .reverse)) := by
  rw [TrackDef.matchesOn, Bool.and_eq_true, List.any_eq_true, qualifier_holds_iff]

/-- The level is the match, turned round for INVERTED (R83). -/
theorem level_iff (d : TrackDef) (isMatch : Bool) :
    d.level isMatch = true ↔ (d.polarity = .normal ↔ isMatch = true) := by
  unfold TrackDef.level
  cases d.polarity <;> simp

/-- On a believed axis the output of a track follows its level (R82 to R84). -/
theorem evaluated_of_follows {ar : AxisRecord} (h : Follows ar.state) (d : TrackDef) (axis : AxisDef) (l : List Window)
    (r : TrackRecord) : d.evaluated axis ar l r = d.stretched (d.level (d.matchesOn axis ar l)) r := by
  unfold TrackDef.evaluated
  rcases h with h | h | h <;> rw [h]

/-- On an axis in WAITING or LOST a track takes its fail action (R85). -/
theorem evaluated_of_failed {ar : AxisRecord} (h : ar.state = .waiting ∨ ar.state = .lost) (d : TrackDef)
    (axis : AxisDef) (l : List Window) (r : TrackRecord) : d.evaluated axis ar l r = d.failed r := by
  unfold TrackDef.evaluated
  rcases h with h | h <;> rw [h]

/-- Settles O43: windows by how the kind reads positions, tracks by whether the axis is believed. -/
theorem trackOutputFollowsWindowsAndAxis : Obligations.TrackOutputFollowsWindowsAndAxis := by
  refine ⟨fun w x => ⟨covers_linear_iff w x, covers_rotary_iff w x⟩, fun d axis ar l r => ⟨fun h => ?_, fun h => ?_⟩⟩
  · refine ⟨d.level (d.matchesOn axis ar l), by rw [level_iff, matchesOn_iff], ?_⟩
    rw [evaluated_of_follows h]
    refine ⟨fun hl => ?_, fun hl hr => ?_, fun hl hr => ?_⟩
    · rw [hl, TrackDef.stretched, if_pos rfl]
    · rw [hl, TrackDef.stretched, if_neg Bool.false_ne_true, if_neg hr]
    · rw [hl, TrackDef.stretched, if_neg Bool.false_ne_true, if_pos hr]
  · rw [evaluated_of_failed h, TrackDef.failed]
    exact ⟨fun ha => by rw [ha], fun ha => by rw [ha], fun ha => by rw [ha]⟩

end Sys2Proof.Proofs

/-!
PROOFS. The edits of tracks and of window lists: DEFINE_TRACK, CLEAR_TRACK and LOAD_WINDOWS.
-/
namespace Sys2Proof.Proofs

open Sys2Proof.Machine Sys2Proof.Claims

/-! ### DEFINE_TRACK and CLEAR_TRACK (R150, R151) -/

/-- The argument words of DEFINE_TRACK: the track index, then the definition as READ_TRACK answers it (R150, R159). -/
def defineTrackArgs (t : Fin 32) (d : TrackDef) : List Word := numWord t.val :: (trackDefWords (some d)).tail

theorem within_flagWord (b : Bool) : Within (flagWord b) (0, 1) := flagWord_eq b ▸ within_flag b

theorem within_defineTrack (t : Fin 32) (d : TrackDef) :
    List.Forall₂ Within (defineTrackArgs t d) (rangesOf 0x12#8 (defineTrackArgs t d)) := by
  have hpolarity : Within (numWord d.polarity.code) (0, 1) := by
    cases d.polarity <;> exact ⟨by decide, by decide⟩
  have hqualifier : Within (numWord d.qualifier.code) (0, 2) := by
    cases d.qualifier <;> exact ⟨by decide, by decide⟩
  have hfail : Within (numWord d.failAction.code) (0, 2) := by
    cases d.failAction <;> exact ⟨by decide, by decide⟩
  exact .cons (within_track t) (.cons (within_flagWord _) (.cons (within_axis _)
    (.cons (within_byte _ 0 (Nat.zero_le _)) (.cons (within_track _) (.cons hpolarity (.cons hqualifier
      (.cons (within_axis _) (.cons hfail (.cons (within_byte _ 0 (Nat.zero_le _)) .nil)))))))))

/-- A flag is read back from its word (R13). -/
theorem yes_of_num {e : CommandEntry} {b : Bool} {j : Nat} (h : e.num j = (flagWord b).toNat) : e.yes j = b := by
  rw [CommandEntry.yes, h]
  cases b <;> rfl

theorem polarity_ofCode (p : Polarity) : Polarity.ofCode (numWord p.code).toNat = p := by
  cases p <;> rfl

theorem qualifier_ofCode (q : Qualifier) : Qualifier.ofCode (numWord q.code).toNat = q := by
  cases q <;> rfl

theorem failAction_ofCode (a : FailAction) : FailAction.ofCode (numWord a.code).toNat = a := by
  cases a <;> rfl

/-- What DEFINE_TRACK carries, word by word (R69, R150). -/
theorem trackDef_of_carries {e : CommandEntry} {t : Fin 32} {d : TrackDef}
    (hc : Carries e 0x12#8 (defineTrackArgs t d)) : e.trackDef = d := by
  have henabled : e.yes 1 = d.enabled := yes_of_num (num_of_carries hc 1)
  have haxis : e.num 2 = d.axis.val := (num_of_carries hc 2).trans (numWord_axis _)
  have hslot : e.num 3 = d.slot.toNat := (num_of_carries hc 3).trans (numWord_byte _)
  have hbit : e.num 4 = d.bit.val := (num_of_carries hc 4).trans (numWord_track _)
  have hpolarity : Polarity.ofCode (e.num 5) = d.polarity :=
    (congrArg _ (num_of_carries hc 5)).trans (polarity_ofCode _)
  have hqualifier : Qualifier.ofCode (e.num 6) = d.qualifier :=
    (congrArg _ (num_of_carries hc 6)).trans (qualifier_ofCode _)
  have hlead : e.num 7 = d.lead.val := (num_of_carries hc 7).trans (numWord_axis _)
  have hfail : FailAction.ofCode (e.num 8) = d.failAction :=
    (congrArg _ (num_of_carries hc 8)).trans (failAction_ofCode _)
  have hstretch : e.num 9 = d.stretch.toNat := (num_of_carries hc 9).trans (numWord_byte _)
  simp [CommandEntry.trackDef, henabled, haxis, hslot, hbit, hpolarity, hqualifier, hlead, hfail, hstretch]

/-- DEFINE_TRACK with no edit lock (R150). -/
theorem exec_defineTrack {s : State} {e : CommandEntry} {rest : List CommandEntry} {t : Fin 32} {d : TrackDef}
    (hb : Begins s e rest) (hn : s.se.commit = .none) (hc : Carries e 0x12#8 (defineTrackArgs t d)) :
    exec .defineTrack s
      = .next (finished { s with se := s.se.withStaged (s.se.staged.setTrack t d) } e rest .ok []) := by
  have ht : e.trackIndex 0 = t := trackIndex_of_num ((num_of_carries hc 0).trans (numWord_track t))
  refine congrArg _ ((begins_of_carries (c := .defineTrack) hb hc (List.mem_singleton.mpr rfl)
    (inRange_of_forall₂ (within_defineTrack t d)) _).trans ?_)
  rw [edit_finishes hb hn, ht, trackDef_of_carries hc]

/-- CLEAR_TRACK with no edit lock (R151). -/
theorem exec_clearTrack {s : State} {e : CommandEntry} {rest : List CommandEntry} {t : Fin 32} (hb : Begins s e rest)
    (hn : s.se.commit = .none) (hc : Carries e 0x13#8 [numWord t.val]) :
    exec .clearTrack s = .next (finished { s with se := s.se.withStaged (s.se.staged.clearTrack t) } e rest .ok
      [numWord (s.se.staged.clearTrack t).free]) := by
  have ht : e.trackIndex 0 = t := trackIndex_of_num ((num_of_carries hc 0).trans (numWord_track t))
  refine congrArg _ ((begins_of_carries (c := .clearTrack) hb hc (List.mem_singleton.mpr rfl)
    (inRange_of_forall₂ (.cons (within_track t) .nil)) _).trans ?_)
  rw [edit_finishes hb hn, ht]

/-- Settles O30: each edit by the track and the definition its argument words carry. -/
theorem trackDefinitionIsWrittenStaged : Obligations.TrackDefinitionIsWrittenStaged := by
  intro s e rest t d hb hn
  refine ⟨fun ⟨hm, hcode, hargs⟩ => ?_, fun hc => exec_clearTrack hb hn hc⟩
  refine exec_defineTrack hb hn ⟨hm, hcode, hargs.trans ?_⟩
  simp only [defineTrackArgs, trackDefWords, List.tail_cons, List.cons.injEq, true_and, and_true]
  refine ⟨?_, ?_, ?_⟩
  · cases d.polarity <;> rfl
  · cases d.qualifier <;> rfl
  · cases d.failAction <;> rfl

/-! ### LOAD_WINDOWS (R73 to R75, R152) -/

/-- The argument words of LOAD_WINDOWS: four numbers, then the windows (R152). -/
def loadWindowsArgs (t : Fin 32) (start : Nat) (truncate : Bool) (load : List Window) : List Word :=
  [numWord t.val, numWord start, flagWord truncate, numWord load.length] ++ windowWords load

theorem loadWindowsArgs_length (t : Fin 32) (start : Nat) (truncate : Bool) (load : List Window) :
    (loadWindowsArgs t start truncate load).length = 4 + 2 * load.length := by
  rw [loadWindowsArgs, List.length_append, windowWords_length]
  rfl

/-- Words in range at the places that have a range; behind these any word is in range (R13). -/
theorem inRange_of_append {code : Byte} {args first more : List Word} (hargs : args = first ++ more)
    (h : List.Forall₂ Within first (rangesOf code args)) (j : Nat) : InRange code args j := by
  intro w r hw hr
  have hj : j < first.length := h.length_eq ▸ (List.getElem?_eq_some_iff.mp hr).1
  rw [hargs, List.getElem?_append_left hj] at hw
  exact within_of_forall₂ h hw hr

theorem inRange_loadWindows {t : Fin 32} {start : Nat} {truncate : Bool} {load : List Window} (hstart : start ≤ 16)
    (hhigh : load.length ≤ 16) (j : Nat) : InRange 0x14#8 (loadWindowsArgs t start truncate load) j := by
  have hfirst : (numWord start).toNat = start := numWord_toNat (by omega)
  have hcount : (numWord load.length).toNat = load.length := numWord_toNat (by omega)
  have hlength : ((loadWindowsArgs t start truncate load).length - 4) / 2 = load.length := by
    rw [loadWindowsArgs_length]
    omega
  exact inRange_of_append rfl (.cons (within_track t) (.cons ⟨Nat.zero_le _, hfirst.trans_le hstart⟩
    (.cons (within_flagWord truncate) (.cons ⟨(hlength.trans hcount.symm).le, (hcount.trans hlength.symm).le⟩ .nil)))) j

/-- The words of a window stand at its place among the words of a list (R160). -/
theorem windowWords_getD {l : List Window} {j : Nat} {w : Window} (h : l[j]? = some w) :
    (windowWords l).getD (2 * j) 0#32 = w.on ∧ (windowWords l).getD (2 * j + 1) 0#32 = w.off := by
  induction l generalizing j with
  | nil => cases h
  | cons x rest ih =>
    cases j with
    | zero =>
      obtain rfl := Option.some.inj h
      exact ⟨rfl, rfl⟩
    | succ j => exact ih h

/-- The windows LOAD_WINDOWS carries (R73). -/
theorem windows_of_carries {e : CommandEntry} {t : Fin 32} {start : Nat} {truncate : Bool} {load : List Window}
    (hhigh : load.length ≤ 16) (hc : Carries e 0x14#8 (loadWindowsArgs t start truncate load)) : e.windows = load := by
  have hcount : e.num 3 = load.length := (num_of_carries hc 3).trans (numWord_toNat (by omega))
  have ⟨_, _, hargs⟩ := hc
  have harg (j : Nat) : e.arg (j + 4) = (windowWords load).getD j 0#32 := by
    rw [CommandEntry.arg, hargs]
    rfl
  refine List.ext_getElem (by simp [CommandEntry.windows, hcount]) fun j _ hj => ?_
  obtain ⟨hon, hoff⟩ := windowWords_getD (List.getElem?_eq_getElem hj)
  simp only [CommandEntry.windows, List.getElem_map, List.getElem_range]
  rw [show 4 + 2 * j = 2 * j + 4 from Nat.add_comm _ _, show 5 + 2 * j = 2 * j + 1 + 4 by omega, harg, harg, hon, hoff]

/-- A list after a load, window by window (R75). -/
theorem loadedList_getElem? {old load : List Window} {start k : Nat} {truncate : Bool} (h : start ≤ old.length)
    (hk : k < loadLength old.length start load.length truncate) :
    (loadedList old start truncate load)[k]? = if k < start then old[k]?
      else if k < start + load.length then load[k - start]? else old[k]? := by
  have htake : (old.take start).length = start := List.length_take_of_le h
  rw [loadedList, List.append_assoc]
  by_cases hbefore : k < start
  · rw [if_pos hbefore, List.getElem?_append_left (by omega), List.getElem?_take_of_lt hbefore]
  · rw [if_neg hbefore, List.getElem?_append_right (by omega), htake]
    by_cases hload : k < start + load.length
    · rw [if_pos hload, List.getElem?_append_left (by omega)]
    · rw [if_neg hload, List.getElem?_append_right (by omega)]
      cases truncate with
      | false =>
        rw [if_neg Bool.false_ne_true, List.getElem?_drop]
        congr 1
        omega
      | true => exact absurd hk hload

theorem setList_lists (b : Bank) (t : Fin 32) (l : List Window) : (b.setList t l).lists[t] = l :=
  Vector.getElem_set_self _

theorem setList_free (b : Bank) (t : Fin 32) (l : List Window) :
    (b.setList t l).free = b.free + b.lists[t].length - l.length := rfl

/-- LOAD_WINDOWS with no edit lock: its tests in order, then the load (R74, R75). -/
theorem exec_loadWindows {s : State} {e : CommandEntry} {rest : List CommandEntry} {t : Fin 32} {start len : Nat}
    {truncate : Bool} {load old : List Window} (hb : Begins s e rest) (hn : s.se.commit = .none) (hstart : start ≤ 16)
    (hlow : 1 ≤ load.length) (hhigh : load.length ≤ 16) (hc : Carries e 0x14#8 (loadWindowsArgs t start truncate load))
    (hold : old = s.se.staged.lists[t]) (hlen : len = loadLength old.length start load.length truncate) :
    exec .loadWindows s = .next (if old.length < start ∨ 16 < len then finished s e rest .badArgument [1#32]
      else if s.se.staged.free < len - old.length then
        finished s e rest .noSpace [numWord (len - old.length), numWord s.se.staged.free]
      else
        finished { s with se := s.se.withStaged (s.se.staged.setList t (loadedList old start truncate load)) } e rest
          .ok [numWord len, numWord (s.se.staged.free + old.length - len)]) := by
  have ⟨_, hq, _⟩ := hb
  have ht : e.trackIndex 0 = t := trackIndex_of_num ((num_of_carries hc 0).trans (numWord_track t))
  have hnum1 : e.num 1 = start := (num_of_carries hc 1).trans (numWord_toNat (by omega))
  have hyes : e.yes 2 = truncate := yes_of_num (num_of_carries hc 2)
  have hlock : s.se.commit.locks = false := by rw [hn]; rfl
  have hcount : (loadWindowsArgs t start truncate load).length ∈ countsOf (codeOf .loadWindows) := by
    rw [← countOk_iff, loadWindowsArgs_length]
    exact decide_eq_true (by omega)
  refine congrArg _ ((begins_of_carries (c := .loadWindows) hb hc hcount (inRange_loadWindows hstart hhigh) _).trans ?_)
  simp only [State.loadWindows, ht, hnum1, hyes, windows_of_carries hhigh hc, ← hold, ← hlen, hlock,
    Bool.false_eq_true, if_false, complete_eq_finished hq, Config.listWindows]
  by_cases hs : old.length < start
  · simp only [hs, if_true, true_or]
  · have hlength : (loadedList old start truncate load).length = len :=
      (loadedList_length (not_lt.mp hs) truncate).trans hlen.symm
    simp only [hs, if_false, false_or, edit_finishes hb hn, setList_lists, setList_free, ← hold, hlength]

/-- Settles O31: by the test that decides, and the list of a load window by window. -/
theorem windowsAreLoadedWholeOrNotAtAll : Obligations.WindowsAreLoadedWholeOrNotAtAll := by
  intro s e rest t start truncate load old len hb hn hstart hlow hhigh hc hold hlen
  have hexec := exec_loadWindows hb hn hstart hlow hhigh hc hold hlen
  refine ⟨fun h => ?_, fun hs hl hfree => ?_, fun hs hl hfree => ?_⟩
  · rw [hexec, if_pos h]
  · rw [hexec, if_neg (by omega), if_pos (by omega)]
  · rw [if_neg (by omega), if_neg (by omega)] at hexec
    have hlength : (loadedList old start truncate load).length = len := (loadedList_length hs truncate).trans hlen.symm
    refine ⟨loadedList old start truncate load, hlength, fun k hk => loadedList_getElem? hs (hk.trans_eq hlen), ?_⟩
    rw [hexec, Bank.setList, ← hold, hlength]

end Sys2Proof.Proofs

/-!
PROOFS. What a row other than the resets and the swap can change of the tables, the commit and the staged operation,
together with the command in flight; and the law that every step keeps: a valid ACTIVE bank, and the SE and the CP in
agreement.
-/
namespace Sys2Proof.Proofs

open Sys2Proof.Machine Sys2Proof.Claims

/-! ### The command in flight (R101, R108, R134) -/

/-- A flight for which the SE neither validates nor copies nor clears. -/
def SeFree (x : Flight) : Prop := x ≠ .validating ∧ x ≠ .copying ∧ x ≠ .clearing

/-- A flight whose command stands at the head of the queue (R134; log entry 8). -/
def AtHead (x : Flight) : Prop := x ≠ .none ∧ x ≠ .releasing

theorem seFree_or_atHead (x : Flight) : SeFree x ∨ AtHead x := by
  cases x
  case validating | copying | clearing => exact .inr ⟨nofun, nofun⟩
  all_goals exact .inl ⟨nofun, nofun, nofun⟩

theorem seFree_of_not_atHead {x : Flight} (h : ¬ AtHead x) : SeFree x := (seFree_or_atHead x).resolve_right h

/-- A command in flight is in the queue (R134). -/
def Queued (s : State) : Prop := AtHead s.cp.flight → s.cp.queue ≠ []

/-! ### The moves of the tables -/

/-- The SE stays as it is, and so does what is in flight; commands join the queue behind those queued. -/
def Apart (s t : State) : Prop := t.se = s.se ∧ t.cp.flight = s.cp.flight ∧ s.cp.queue <+: t.cp.queue

/-- One change of the SE or of what is in flight, with what the state admits it by. Every row but the resets and the
evaluation of a frame is a run of these (`tableMoves_of_exec`). -/
inductive TableMove : State → State → Prop where
  /-- Neither the SE nor what is in flight changes. -/
  | apart {s t : State} (h : Apart s t) : TableMove s t
  /-- The dynamic records change (R48, R179). -/
  | records {s t : State} (a : Vector AxisRecord 16) (r : Vector TrackRecord 32)
      (hse : t.se = { s.se with axisRecords := a, trackRecords := r }) (hcp : t.cp = s.cp) : TableMove s t
  /-- A command completes for which the SE does nothing (R136). -/
  | complete {s : State} (hfree : SeFree s.cp.flight) (status : Status) (words : List Word) :
      TableMove s (s.complete status words)
  /-- The command at the head goes into flight, its next request becomes due, or it leaves the queue (R134, R180). -/
  | fly {s : State} (x : Flight) (hfree : SeFree s.cp.flight) (hx : SeFree x)
      (hhead : AtHead x → s.cp.queue ≠ [] ∨ AtHead s.cp.flight) : TableMove s (s.setFlight x)
  /-- RESET ALL's own part of the CP (R139). -/
  | resetCp {s : State} (hfree : SeFree s.cp.flight) (hq : s.cp.queue ≠ []) : TableMove s s.resetCp
  /-- The STAGED bank is edited while no commit stands (R98). -/
  | edit {s : State} (b : Bank) (hfree : SeFree s.cp.flight) (hn : s.se.commit = .none) :
      TableMove s { s with se := s.se.withStaged b }
  /-- A PENDING commit is dropped (R118, R120). -/
  | drop {s : State} {o : CommitOrder} (hpending : s.se.commit = .pending o) : TableMove s (s.setCommit .none)
  /-- STAGE_COPY or STAGE_CLEAR goes into flight while no commit stands (R99, R100, R101). -/
  | startStaged {s : State} (op : StagedOp) (x : Flight) (hfree : SeFree s.cp.flight) (hq : s.cp.queue ≠ [])
      (hn : s.se.commit = .none) (hx : (op = .copying ∧ x = .copying) ∨ (op = .clearing ∧ x = .clearing)) :
      TableMove s (State.setFlight { s with se := { s.se with stagedOp := op } } x)
  /-- STAGE_COPY or STAGE_CLEAR completes (R99, R100). -/
  | endStaged {s : State} (b : Bank) (hflight : s.cp.flight = .copying ∨ s.cp.flight = .clearing) (words : List Word) :
      TableMove s (State.complete { s with se := { s.se.withStaged b with stagedOp := .idle } } .ok words)
  /-- COMMIT goes into flight, and validation begins (R107, R108). -/
  | startValidation {s : State} (o : CommitOrder) (hfree : SeFree s.cp.flight) (hq : s.cp.queue ≠ [])
      (hop : s.se.stagedOp = .idle) : TableMove s ((s.setCommit (.validating o)).setFlight .validating)
  /-- A validation ends; the commit is PENDING only when the STAGED bank has passed (R109, R110). -/
  | endValidation {s u : State} (c : Commit) (hflight : s.cp.flight = .validating)
      (hc : c = .none ∨ (∃ o, c = .pending o) ∧ s.se.staged.validate = none)
      (hse : u.se = { s.se with commit := c }) (hcp : u.cp = s.cp) (status : Status) (words : List Word) :
      TableMove s (u.complete status words)

/-- A run of moves. -/
abbrev TableMoves : State → State → Prop := Relation.ReflTransGen TableMove

/-! ### The rows of the ring and of the MU -/

theorem apart_of_same {s t : State} (hse : t.se = s.se) (hcp : t.cp = s.cp) : Apart s t :=
  ⟨hse, by rw [hcp], by rw [hcp]⟩

theorem apart_refl (s : State) : Apart s s := apart_of_same rfl rfl

theorem Apart.trans {s u t : State} (h : Apart s u) (h' : Apart u t) : Apart s t := by
  obtain ⟨hse, hf, hq⟩ := h
  obtain ⟨hse', hf', hq'⟩ := h'
  exact ⟨hse'.trans hse, hf'.trans hf, hq.trans hq'⟩

theorem apart_send (s : State) (l : List (List Notice)) : Apart s (s.send l) :=
  apart_of_same (send_se s l) (send_cp s l)

theorem apart_endReception (s : State) : Apart s s.endReception := apart_of_same rfl rfl

theorem apart_forwardReady (s : State) (f : Frame) : Apart s (s.forwardReady f) := apart_of_same rfl rfl

/-- A frame whose reception ends is dropped, or takes its routes (R30). -/
theorem apart_ifRoom {s : State} (f : Frame) {routes : State → State}
    (h : Apart s.endReception (routes s.endReception)) : Apart s (s.endReception.ifRoom f routes) := by
  refine (apart_endReception s).trans ?_
  rcases ifRoom_cases s.endReception f routes with ⟨-, hs⟩ | ⟨-, hs⟩ <;> rw [hs]
  · exact apart_send _ _
  · exact h

theorem apart_routeSample (s : State) (f : Frame) : Apart s (s.routeSample f) := by
  refine apart_of_same (routeSample_se s f) ?_
  unfold State.routeSample
  split <;> rfl

theorem apart_routeLost (s : State) (f : Frame) : Apart s (s.routeLost f) := by
  refine apart_of_same (routeLost_se s f) ?_
  unfold State.routeLost State.announceLost
  split <;> rfl

theorem apart_routeEnumerate (s : State) (f : Frame) : Apart s (s.routeEnumerate f) := by
  refine apart_of_same (routeEnumerate_se s f) ?_
  unfold State.routeEnumerate
  split <;> rfl

/-- A command that is accepted joins the queue's tail (R126, R130). -/
theorem apart_accept {s t : State} (e : CommandEntry) (hse : t.se = s.se) (hf : t.cp.flight = s.cp.flight)
    (hq : t.cp.queue = s.cp.queue ++ [e]) : Apart s t :=
  ⟨hse, hf, [e], hq.symm⟩

theorem apart_offerUnicast (s : State) (e : CommandEntry) : Apart s (s.offerUnicast e) := by
  unfold State.offerUnicast
  split
  · unfold State.takeDuplicate
    split
    · exact apart_send s _
    · split
      · exact Apart.trans (u := { s with iq := s.iq.joinCopy _ }) (apart_of_same rfl rfl) (apart_send _ _)
      · exact apart_send s _
  · split_ifs
    · exact apart_send s _
    · exact apart_send s _
    · unfold State.acceptUnicast
      exact apart_accept e (by simp) (by simp) (by simp)

theorem apart_offerBroadcast (s : State) (e : CommandEntry) : Apart s (s.offerBroadcast e) := by
  unfold State.offerBroadcast
  split_ifs
  · exact apart_send s _
  · exact apart_send s _
  · exact apart_accept e (by simp) (by simp) (by simp)

theorem apart_takeUnicast (s : State) (f : Frame) (valid : Bool) : Apart s (s.takeUnicast f valid) := by
  unfold State.takeUnicast
  split
  · exact apart_send s _
  · exact apart_offerUnicast s _

theorem apart_receiveCommand {f : Frame} {s t : State} (ht : execReceiveCommand f s = .next t) : Apart s t := by
  rcases execReceiveCommand_cases ht with rfl | ⟨-, valid, -, ⟨-, rfl⟩ | ⟨-, -, -, rfl⟩ | ⟨-, -, rfl⟩⟩
  · exact apart_refl _
  · exact (apart_endReception s).trans (apart_takeUnicast _ f valid)
  · exact apart_ifRoom f ((apart_forwardReady _ f).trans (apart_offerBroadcast _ _))
  · exact apart_ifRoom f (apart_forwardReady _ f)

theorem apart_receiveSample {f : Frame} {s t : State} (ht : execReceiveSample f s = .next t) : Apart s t := by
  rcases execReceiveSample_cases ht with rfl | ⟨-, ⟨-, rfl⟩ | ⟨-, rfl⟩⟩
  · exact apart_refl _
  · exact apart_ifRoom f ((apart_of_same (deliver_se _) (deliver_cp _)).trans (apart_routeSample _ f))
  · exact apart_ifRoom f (apart_routeLost _ f)

theorem apart_receiveDamaged {f : Frame} {s t : State} (ht : execReceiveDamaged f s = .next t) : Apart s t := by
  rcases execReceiveDamaged_cases ht with rfl | ⟨-, -, rfl⟩
  · exact apart_refl _
  · refine apart_ifRoom f (Apart.trans ?_ (apart_send _ _))
    split
    · exact apart_routeLost _ f
    · exact apart_forwardReady _ f

theorem apart_receiveReply {f : Frame} {s t : State} (ht : execReceiveReply f s = .next t) : Apart s t := by
  rcases execReceiveReply_cases ht with rfl | ⟨-, rfl | rfl⟩
  · exact apart_refl _
  · exact (apart_endReception s).trans (apart_send _ _)
  · exact apart_ifRoom f (apart_forwardReady _ f)

theorem apart_receiveEnumerate {f : Frame} {s t : State} (ht : execReceiveEnumerate f s = .next t) : Apart s t := by
  rcases execReceiveEnumerate_cases ht with rfl | ⟨-, -, rfl⟩
  · exact apart_refl _
  · exact apart_ifRoom f (apart_routeEnumerate _ f)

theorem apart_receiveForeign {f : Frame} {s t : State} (ht : execReceiveForeign f s = .next t) : Apart s t := by
  rcases execReceiveForeign_cases ht with rfl | ⟨-, ⟨-, rfl⟩ | ⟨-, rfl⟩⟩
  · exact apart_refl _
  · exact apart_ifRoom f ((apart_forwardReady _ f).trans (apart_send _ _))
  · exact apart_ifRoom f (apart_forwardReady _ f)

/-! ### The shared operations of the CP -/

theorem tableMoves_apart {s t : State} (h : Apart s t) : TableMoves s t := .single (.apart h)

theorem seFree_none : SeFree .none := ⟨nofun, nofun, nofun⟩

theorem seFree_of_none {x : Flight} (h : x = .none) : SeFree x := h ▸ seFree_none

/-- A command that changes nothing of the SE before it completes. -/
theorem tableMoves_answer {s u : State} (h : Apart s u) (hfree : SeFree s.cp.flight) (status : Status)
    (words : List Word) : TableMoves s (u.complete status words) := by
  have hfree' : SeFree u.cp.flight := by
    obtain ⟨-, hf, -⟩ := h
    rwa [hf]
  exact (tableMoves_apart h).tail (.complete hfree' status words)

/-- Beginning a command is a run of moves when the command's own tests and effect are one; it begins at the head, with
nothing in flight (R134). -/
theorem tableMoves_beginsIf {s : State} (admits : CommandEntry → Bool) (own : CommandEntry → State)
    (hown : s.cp.queue ≠ [] → s.cp.flight = .none → ∀ e, TableMoves s (own e)) :
    TableMoves s (s.beginsIf admits own) := by
  rcases beginsIf_cases s admits own with h | ⟨e, rest, -, hq, hf, -, ⟨status, words, -, h⟩ | ⟨-, h⟩⟩ <;> rw [h]
  · exact tableMoves_answer (apart_refl s) (seFree_of_none hf) status words
  · exact hown (by rw [hq]; nofun) hf e

/-- Beginning a command that only answers, once the MU or a setting has changed. -/
theorem tableMoves_begins_answer {s : State} (admits : CommandEntry → Bool) (u : CommandEntry → State)
    (status : Status) (words : CommandEntry → List Word) (h : ∀ e, Apart s (u e)) :
    TableMoves s (s.beginsIf admits (fun e => (u e).complete status (words e))) :=
  tableMoves_beginsIf _ _ (fun _ hf e => tableMoves_answer (h e) (seFree_of_none hf) status (words e))

theorem commit_of_not_locks {c : Commit} (h : ¬ c.locks = true) : c = .none := by
  cases c with
  | none => rfl
  | validating | pending => exact absurd rfl h

theorem tableMoves_edit {s : State} (hfree : SeFree s.cp.flight) (change : Bank → Bank) (words : Bank → List Word) :
    TableMoves s (s.edit change words) := by
  rcases edit_cases s change words with ⟨-, h⟩ | ⟨hlock, h⟩ <;> rw [h]
  · exact tableMoves_answer (apart_refl s) hfree _ _
  · have hn : s.se.commit = .none := commit_of_not_locks (by simp [hlock])
    have hedit : TableMoves s { s with se := s.se.withStaged (change s.se.staged) } := .single (.edit _ hfree hn)
    exact hedit.tail (.complete (s := { s with se := s.se.withStaged (change s.se.staged) }) hfree _ _)

/-- Beginning an edit that nothing but the edit lock refuses (R98). -/
theorem tableMoves_begins_edit {s : State} (admits : CommandEntry → Bool) (change : CommandEntry → Bank → Bank)
    (words : Bank → List Word) : TableMoves s (s.beginsIf admits (fun e => s.edit (change e) words)) :=
  tableMoves_beginsIf _ _ (fun _ hf e => tableMoves_edit (seFree_of_none hf) (change e) words)

theorem tableMoves_loadWindows {s : State} (hfree : SeFree s.cp.flight) (e : CommandEntry) :
    TableMoves s (s.loadWindows e) := by
  unfold State.loadWindows
  simp only
  split_ifs
  · exact tableMoves_answer (apart_refl s) hfree _ _
  · exact tableMoves_answer (apart_refl s) hfree _ _
  · exact tableMoves_answer (apart_refl s) hfree _ _
  · exact tableMoves_answer (apart_refl s) hfree _ _
  · exact tableMoves_edit hfree _ _

theorem tableMoves_startStaged {s : State} (hq : s.cp.queue ≠ []) (hf : s.cp.flight = .none) {op : StagedOp}
    {x : Flight} (hx : (op = .copying ∧ x = .copying) ∨ (op = .clearing ∧ x = .clearing)) :
    TableMoves s (s.startStaged op x) := by
  unfold State.startStaged
  split
  · exact tableMoves_answer (apart_refl s) (seFree_of_none hf) _ _
  · next hlock => exact .single (.startStaged op x (seFree_of_none hf) hq (commit_of_not_locks hlock) hx)

@[simp] theorem reportTooLate_cp (s : State) (o : CommitOrder) : (s.reportTooLate o).cp = s.cp := by
  unfold State.reportTooLate
  split
  · rfl
  · exact send_cp s _

@[simp] theorem reportFailed_cp (s : State) (o : CommitOrder) (item : Item) : (s.reportFailed o item).cp = s.cp := by
  unfold State.reportFailed
  split
  · rfl
  · exact send_cp s _

theorem tableMoves_startCommit {s : State} (hq : s.cp.queue ≠ []) (hf : s.cp.flight = .none) (o : CommitOrder) :
    TableMoves s (s.startCommit o) := by
  have hfree := seFree_of_none hf
  unfold State.startCommit
  split_ifs with hmode hlock hlate
  · exact tableMoves_answer (apart_refl s) hfree _ _
  · exact tableMoves_answer (apart_refl s) hfree _ _
  · exact tableMoves_answer (apart_of_same (reportTooLate_se s o) (reportTooLate_cp s o)) hfree _ _
  · have hop : s.se.stagedOp = .idle := by
      rw [Bool.or_eq_true, not_or, decide_eq_true_eq, not_not] at hlock
      exact hlock.2
    exact .single (.startValidation o hfree hq hop)

theorem tableMoves_finishValidation {s : State} (hf : s.cp.flight = .validating) (o : CommitOrder) :
    TableMoves s (s.finishValidation o) := by
  unfold State.finishValidation
  split
  · exact .single (.endValidation .none hf (.inl rfl) (by simp) (by simp) _ _)
  · next hvalid =>
    split
    · exact .single (.endValidation .none hf (.inl rfl) (by simp) (by simp) _ _)
    · exact .single (.endValidation (.pending o) hf (.inr ⟨⟨o, rfl⟩, hvalid⟩) (setCommit_se s _) rfl _ _)

/-! ### The requests of the CP -/

/-- BYPASS's request of the SE (R120, R177). -/
theorem tableMoves_dropCommit {s : State} (hf : s.cp.flight = .dropping) : TableMoves s s.dropCommit := by
  have hfree : SeFree s.cp.flight := by rw [hf]; exact ⟨nofun, nofun, nofun⟩
  have hhead : AtHead s.cp.flight := by rw [hf]; exact ⟨nofun, nofun⟩
  have told (c : Option CommitOrder) : TableMove s (s.setFlight (.dropped c)) :=
    .fly _ hfree ⟨nofun, nofun, nofun⟩ (fun _ => .inr hhead)
  unfold State.dropCommit
  split
  · next o ho =>
    exact .tail (.single (.drop ho))
      (.fly (s := s.setCommit .none) _ hfree ⟨nofun, nofun, nofun⟩ (fun _ => .inr hhead))
  · exact .single (told none)
  · exact .single (told none)

/-- The request of the SE leaves its answer in flight (R177). -/
theorem dropCommit_flight (s : State) : ∃ c, s.dropCommit.cp.flight = .dropped c := by
  unfold State.dropCommit
  split
  · exact ⟨_, rfl⟩
  · exact ⟨none, rfl⟩
  · exact ⟨none, rfl⟩

theorem tableMoves_replyDropped {s : State} (hf : ∃ c, s.cp.flight = .dropped c) : TableMoves s s.replyDropped := by
  obtain ⟨c, hf⟩ := hf
  have hreply : s.replyDropped = s.complete .ok (droppedWords c) := by rw [State.replyDropped, hf]
  rw [hreply]
  exact tableMoves_answer (apart_refl s) (by rw [hf]; exact ⟨nofun, nofun, nofun⟩) _ _

/-- Requests that are taken one behind the other while a command is in flight, of which only the last may end it. -/
theorem foldl_requests {α : Type} {P F : State → Prop} {step : State → α → State} {reply : α}
    (hP : ∀ u g, F u → P u → P (step u g)) (hF : ∀ u g, g ≠ reply → F u → F (step u g)) (l : List α)
    (hl : reply ∉ l.dropLast) {s : State} (hs : F s) (h : P s) : P (l.foldl step s) := by
  induction l generalizing s with
  | nil => exact h
  | cons g rest ih =>
    cases rest with
    | nil => exact hP s g hs h
    | cons g' rest =>
      rw [List.dropLast_cons_cons, List.mem_cons, not_or] at hl
      exact ih hl.2 (hF s g (Ne.symm hl.1) hs) (hP s g hs h)

/-- A RESUME is in flight (R179). -/
def Resuming (s : State) : Prop := ∃ g, s.cp.flight = .resuming g

/-- A request goes over to the next one of the same command in flight. -/
theorem tableMoves_next {s u : State} (h : TableMoves s u) {x : Flight} (hfree : SeFree u.cp.flight)
    (hhead : AtHead u.cp.flight) (hx : SeFree x) : TableMoves s (u.setFlight x) :=
  h.tail (.fly x hfree hx (fun _ => .inr hhead))

theorem tableMoves_resumeStep {s : State} (g : ResumeStep) (hf : Resuming s) : TableMoves s (s.resumeStep g) := by
  obtain ⟨g', hf⟩ := hf
  have hfree : SeFree s.cp.flight := by rw [hf]; exact ⟨nofun, nofun, nofun⟩
  have hhead : AtHead s.cp.flight := by rw [hf]; exact ⟨nofun, nofun⟩
  cases g with
  | records =>
    have hrecords : TableMoves s { s with se := s.se.clearRecords } := .single (.records _ _ rfl rfl)
    exact tableMoves_next hrecords hfree hhead ⟨nofun, nofun, nofun⟩
  | mode =>
    have hmode : TableMoves s (s.setMode .running) := tableMoves_apart (apart_of_same rfl rfl)
    exact tableMoves_next hmode hfree hhead ⟨nofun, nofun, nofun⟩
  | reply => exact tableMoves_answer (apart_refl s) hfree _ _

theorem tableMoves_foldl_resumeStep {s : State} (hf : Resuming s) (next last : ResumeStep) :
    TableMoves s ((resumeSteps next last).foldl State.resumeStep s) :=
  foldl_requests (F := Resuming) (fun _ g hu h => h.trans (tableMoves_resumeStep g hu))
    (fun u g hg _ => resumeStep_flight u g hg) _ (reply_notMem_dropLast_resumeSteps next last) hf .refl

theorem tableMoves_giveUpAddress {s : State} (hfree : SeFree s.cp.flight) : TableMoves s s.giveUpAddress := by
  have hgone : TableMoves s { s with rpu := { s.rpu with address := 0#8, mode := .unaddressed } } :=
    tableMoves_apart (apart_of_same rfl rfl)
  exact hgone.tail (.fly .none hfree seFree_none (fun h => absurd rfl h.1))

theorem tableMoves_replyReleasing {s : State} (hf : s.cp.flight = .none) : TableMoves s s.nextPause.replyReleasing := by
  have hreply := tableMoves_answer (s := s) (u := s.nextPause) (apart_of_same rfl rfl) (seFree_of_none hf) .ok []
  have hfree : SeFree (s.nextPause.complete .ok []).cp.flight := by
    rcases complete_flight s.nextPause .ok [] with h | h <;> rw [h]
    · exact seFree_none
    · exact seFree_of_none hf
  exact hreply.tail (.fly .releasing hfree ⟨nofun, nofun, nofun⟩ (fun h => absurd rfl h.2))

/-! ### Every row but the resets and the evaluation of a frame -/

theorem tableMoves_of_exec {c : Instr} {s t : State} (ht : exec c s = .next t) (hpin : c ≠ .resetPinAsserted)
    (hreset : ∀ g, c ≠ .seTableReset g) (hsample : c ≠ .sampleEvaluation) : TableMoves s t := by
  cases c with
  | resetPinAsserted => exact absurd rfl hpin
  | seTableReset g => exact absurd rfl (hreset g)
  | sampleEvaluation => exact absurd rfl hsample
  | resetPinReleased => cases ht; exact tableMoves_apart (apart_of_same rfl rfl)
  | lineAcquired port =>
    rcases execLineAcquired_cases ht with rfl | ⟨-, -, rfl | rfl⟩ <;>
      exact tableMoves_apart (apart_of_same (by simp) (by simp))
  | lineLost port =>
    rcases execLineLost_cases ht with rfl | ⟨-, rfl⟩ <;> exact tableMoves_apart (apart_of_same (by simp) (by simp))
  | rxAbort cause =>
    rcases execRxAbort_cases ht with rfl | ⟨-, r, rfl⟩ <;> exact tableMoves_apart (apart_of_same (by simp) (by simp))
  | receiveSample f => exact tableMoves_apart (apart_receiveSample ht)
  | receiveDamaged f => exact tableMoves_apart (apart_receiveDamaged ht)
  | receiveCommand f => exact tableMoves_apart (apart_receiveCommand ht)
  | receiveReply f => exact tableMoves_apart (apart_receiveReply ht)
  | receiveEnumerate f => exact tableMoves_apart (apart_receiveEnumerate ht)
  | receiveForeign f => exact tableMoves_apart (apart_receiveForeign ht)
  | lostSample =>
    rcases execLostSample_cases ht with rfl | ⟨-, rest, -, rfl⟩
    · exact .refl
    · exact .single (.records (tabulate 16 s.se.announcedAxis) s.se.trackRecords (by simp [State.takeLost])
        (by simp [State.takeLost]))
  | sendForwardBegin =>
    rcases execSendForwardBegin_cases ht with rfl | ⟨-, -, -, rfl⟩ <;>
      exact tableMoves_apart (apart_of_same rfl rfl)
  | sendReplyBegin =>
    rcases execSendReplyBegin_cases ht with rfl | ⟨-, r, rest, -, rfl⟩ <;>
      exact tableMoves_apart (apart_of_same rfl rfl)
  | frameForwarded =>
    rcases execFrameForwarded_cases ht with rfl | ⟨-, -, rfl⟩ <;>
      exact tableMoves_apart (apart_of_same (by simp) (by simp))
  | replySent =>
    rcases execReplySent_cases ht with rfl | ⟨-, rfl⟩ <;> exact tableMoves_apart (apart_of_same (by simp) (by simp))
  | outDiscard =>
    rcases execOutDiscard_cases ht with rfl | ⟨-, -, -, rfl⟩ <;>
      exact tableMoves_apart (apart_of_same (by simp) (by simp))
  | replyExpired position =>
    rcases execReplyExpired_cases ht with rfl | ⟨-, r, l, -, rfl⟩ <;>
      exact tableMoves_apart (apart_of_same (by simp) (by simp))
  | identify => cases ht; exact tableMoves_begins_answer _ _ _ _ (fun _ => apart_refl s)
  | readStatus => cases ht; exact tableMoves_begins_answer _ _ _ _ (fun _ => apart_of_same (by simp) (by simp))
  | defineAxis => cases ht; exact tableMoves_begins_edit _ _ _
  | clearAxis => cases ht; exact tableMoves_begins_edit _ _ _
  | defineTrack => cases ht; exact tableMoves_begins_edit _ _ _
  | clearTrack => cases ht; exact tableMoves_begins_edit _ _ _
  | loadWindows => cases ht; exact tableMoves_beginsIf _ _ (fun _ hf => tableMoves_loadWindows (seFree_of_none hf))
  | stageCopy =>
    cases ht
    exact tableMoves_beginsIf _ _ (fun hq hf _ => tableMoves_startStaged hq hf (.inl ⟨rfl, rfl⟩))
  | stageClear =>
    cases ht
    exact tableMoves_beginsIf _ _ (fun hq hf _ => tableMoves_startStaged hq hf (.inr ⟨rfl, rfl⟩))
  | defineStatusSlot => cases ht; exact tableMoves_begins_edit _ _ _
  | commit => cases ht; exact tableMoves_beginsIf _ _ (fun hq hf e => tableMoves_startCommit hq hf e.commitOrder)
  | cancelCommit =>
    cases ht
    refine tableMoves_beginsIf _ _ (fun _ hf _ => ?_)
    have hfree := seFree_of_none hf
    split
    · next o ho => exact .tail (.single (.drop ho)) (.complete (s := s.setCommit .none) hfree _ _)
    · exact tableMoves_answer (apart_refl s) hfree _ _
    · exact tableMoves_answer (apart_refl s) hfree _ _
  | readAxis => cases ht; exact tableMoves_begins_answer _ _ _ _ (fun _ => apart_refl s)
  | readTrack => cases ht; exact tableMoves_begins_answer _ _ _ _ (fun _ => apart_refl s)
  | readWindows =>
    cases ht
    refine tableMoves_beginsIf _ _ (fun _ hf _ => ?_)
    simp only
    split <;> exact tableMoves_answer (apart_refl s) (seFree_of_none hf) _ _
  | readPool => cases ht; exact tableMoves_begins_answer _ _ _ _ (fun _ => apart_refl s)
  | readFault => cases ht; exact tableMoves_begins_answer _ _ _ _ (fun _ => apart_of_same (by simp) (by simp))
  | clearFault => cases ht; exact tableMoves_begins_answer _ _ _ _ (fun _ => apart_of_same (by simp) (by simp))
  | readCounters =>
    cases ht
    refine tableMoves_beginsIf _ _ (fun _ hf _ => ?_)
    split <;> exact tableMoves_answer (apart_of_same (by simp) (by simp)) (seFree_of_none hf) _ _
  | setAttentionMask => cases ht; exact tableMoves_begins_answer _ _ _ _ (fun _ => apart_of_same rfl rfl)
  | ackAttention => cases ht; exact tableMoves_begins_answer _ _ _ _ (fun _ => apart_of_same (by simp) (by simp))
  | setReplyLifetime => cases ht; exact tableMoves_begins_answer _ _ _ _ (fun _ => apart_of_same rfl rfl)
  | bypass =>
    cases ht
    refine tableMoves_beginsIf _ _ (fun hq hf _ => ?_)
    split
    · have hmode : TableMoves s (s.setMode .bypass) := tableMoves_apart (apart_of_same rfl rfl)
      exact hmode.tail (.fly _ (seFree_of_none hf) ⟨nofun, nofun, nofun⟩ (fun _ => .inl hq))
    · exact tableMoves_answer (apart_refl s) (seFree_of_none hf) _ _
  | resume =>
    cases ht
    refine tableMoves_beginsIf _ _ (fun hq hf _ => ?_)
    split
    · exact .single (.fly _ (seFree_of_none hf) ⟨nofun, nofun, nofun⟩ (fun _ => .inl hq))
    · exact tableMoves_answer (apart_refl s) (seFree_of_none hf) _ _
  | releaseAddress =>
    rcases execReleaseAddress_cases ht with ⟨-, hf, rfl⟩ | rfl
    · exact tableMoves_giveUpAddress (by rw [hf]; exact ⟨nofun, nofun, nofun⟩)
    · refine tableMoves_beginsIf _ _ (fun _ hf _ => ?_)
      split
      · exact tableMoves_replyReleasing hf
      · exact (tableMoves_replyReleasing hf).trans (tableMoves_giveUpAddress ⟨nofun, nofun, nofun⟩)
  | resetTables =>
    cases ht
    exact tableMoves_beginsIf _ _ (fun hq hf _ =>
      .single (.fly _ (seFree_of_none hf) ⟨nofun, nofun, nofun⟩ (fun _ => .inl hq)))
  | resetAll => cases ht; exact tableMoves_beginsIf _ _ (fun hq hf _ => .single (.resetCp (seFree_of_none hf) hq))
  | unknownCommand => cases ht; exact tableMoves_beginsIf _ _ (fun _ _ _ => .refl)
  | validationComplete =>
    rcases execValidationComplete_cases ht with rfl | ⟨-, hf, o, -, rfl⟩
    · exact .refl
    · exact tableMoves_finishValidation hf o
  | copyComplete =>
    rcases execCopyComplete_cases ht with rfl | ⟨-, hf, rfl⟩
    · exact .refl
    · exact .single (.endStaged _ (.inl hf) _)
  | clearComplete =>
    rcases execClearComplete_cases ht with rfl | ⟨-, hf, rfl⟩
    · exact .refl
    · exact .single (.endStaged _ (.inr hf) _)
  | commitDrop =>
    have hpause : TableMoves s s.nextPause := tableMoves_apart (apart_of_same rfl rfl)
    rcases execCommitDrop_cases ht with rfl | ⟨-, ⟨hf, rfl | rfl⟩ | ⟨hf, rfl⟩⟩
    · exact .refl
    · exact hpause.trans (tableMoves_dropCommit hf)
    · exact (hpause.trans (tableMoves_dropCommit hf)).trans (tableMoves_replyDropped (dropCommit_flight _))
    · exact tableMoves_replyDropped hf
  | dynamicRecordClear last =>
    rcases execDynamicRecordClear_cases ht with rfl | ⟨-, next, hf, rfl⟩
    · exact .refl
    · exact tableMoves_foldl_resumeStep ⟨next, hf⟩ next last

end Sys2Proof.Proofs

/-!
PROOFS. Which rows leave the ACTIVE bank alone, and the law that every step keeps: the ACTIVE bank is valid, and the
command in flight agrees with the SE.
-/
namespace Sys2Proof.Proofs

open Sys2Proof.Machine Sys2Proof.Claims

/-! ### The ACTIVE bank (R97) -/

/-- The ACTIVE bank, the selector and the generation are the same. -/
def SameActive (s t : State) : Prop :=
  t.se.active = s.se.active ∧ t.se.selector = s.se.selector ∧ t.se.generation = s.se.generation

theorem sameActive_of_eq {s t : State} (h : t.se = s.se) : SameActive s t := by
  rw [SameActive, h]
  exact ⟨rfl, rfl, rfl⟩

theorem SameActive.trans {s u t : State} (h : SameActive s u) (h' : SameActive u t) : SameActive s t := by
  obtain ⟨ha, hs, hg⟩ := h
  obtain ⟨ha', hs', hg'⟩ := h'
  exact ⟨ha'.trans ha, hs'.trans hs, hg'.trans hg⟩

theorem sameActive_withStaged {s t : State} {b : Bank} (h : t.se = s.se.withStaged b) : SameActive s t := by
  rw [SameActive, h]
  exact ⟨withStaged_active _ _, withStaged_selector _ _, withStaged_generation _ _⟩

/-- No move of the tables touches the ACTIVE bank (R97, R98). -/
theorem sameActive_of_move {s t : State} (hm : TableMove s t) : SameActive s t := by
  cases hm with
  | apart h => exact sameActive_of_eq h.1
  | records a r hse => rw [SameActive, hse]; exact ⟨rfl, rfl, rfl⟩
  | complete => exact sameActive_of_eq (complete_se _ _ _)
  | fly | resetCp => exact sameActive_of_eq rfl
  | edit => exact sameActive_withStaged rfl
  | endStaged b =>
    have staged : SameActive s { s with se := s.se.withStaged b } := sameActive_withStaged rfl
    rw [SameActive, complete_se]
    exact staged
  | drop | startStaged | startValidation => exact ⟨rfl, rfl, rfl⟩
  | endValidation c _ _ hse => rw [SameActive, complete_se, hse]; exact ⟨rfl, rfl, rfl⟩

theorem sameActive_of_moves {s t : State} (hm : TableMoves s t) : SameActive s t := by
  induction hm with
  | refl => exact sameActive_of_eq rfl
  | tail _ hmove ih => exact ih.trans (sameActive_of_move hmove)

/-- After a swap the other bank is ACTIVE (R113). -/
theorem swap_selector_ne (e : Se) : e.swap.selector ≠ e.selector := by
  show e.selector.other ≠ e.selector
  cases e.selector <;> nofun

/-- The evaluation of a frame swaps the banks when a swap is due, or changes the records alone (R48, R112). -/
theorem evaluate_cases (s : State) (f : Frame) :
    (s.se.commit.swapDue (cycleOf f) = true ∧ ∃ a r,
        (s.evaluate f).se = { s.se.swap with axisRecords := a, trackRecords := r } ∧ (s.evaluate f).cp = s.cp)
      ∨ (s.se.commit.swapDue (cycleOf f) = false ∧ TableMove s (s.evaluate f)) := by
  obtain ⟨mu, onWay, lag, n, ht⟩ := evaluate_eq s f
  have hse : (s.evaluate f).se
      = { swapped s.se f with
          axisRecords := (s.se.evaluated f).axisRecords, trackRecords := (s.se.evaluated f).trackRecords } := by
    rw [ht]
    rfl
  have hcp : (s.evaluate f).cp = s.cp := by rw [ht]
  cases hdue : s.se.commit.swapDue (cycleOf f) with
  | true =>
    rw [swapped, if_pos hdue] at hse
    exact .inl ⟨rfl, _, _, hse, hcp⟩
  | false =>
    rw [swapped, if_neg (by simp [hdue])] at hse
    exact .inr ⟨rfl, .records _ _ hse hcp⟩

/-- Settles O51: every row but the resets is a run of moves of the tables, or the evaluation of a frame, whose swap
turns the selector. -/
theorem activeBankChangesOnlyAtSwapAndReset : Obligations.ActiveBankChangesOnlyAtSwapAndReset := by
  intro c s t ht hpin hreset hselector
  by_cases hsample : c = .sampleEvaluation
  · subst hsample
    rcases execSampleEvaluation_cases ht with rfl | ⟨-, f, handed, -, -, rfl⟩
    · exact sameActive_of_eq rfl
    · rcases evaluate_cases s f with ⟨-, a, r, hse, -⟩ | ⟨-, hm⟩
      · have hsame := hselector rfl
        rw [hse] at hsame
        exact absurd hsame (swap_selector_ne s.se)
      · exact sameActive_of_move hm
  · exact sameActive_of_moves (tableMoves_of_exec ht hpin hreset hsample)

/-! ### The law of the ACTIVE bank and the command in flight (R97, R101, R108) -/

/-- The two laws, which keep each other. -/
def TablesLaw (s : State) : Prop := Safety.ActiveValid s ∧ Safety.InFlight s

/-- The SE validates, copies and clears nothing; its ACTIVE bank is valid, and so is its STAGED bank while a commit is
PENDING. -/
structure SeAtRest (e : Se) : Prop where
  active : e.active.validate = none
  pending : ∀ o, e.commit = .pending o → e.staged.validate = none
  notValidating : ∀ o, e.commit ≠ .validating o
  idle : e.stagedOp = .idle

/-- While nothing in flight waits for the SE, the laws say that the SE is at rest. -/
theorem tablesLaw_iff_of_seFree {s : State} (hf : SeFree s.cp.flight) :
    TablesLaw s ↔ SeAtRest s.se ∧ Queued s := by
  obtain ⟨hv, hc, hcl⟩ := hf
  constructor
  · rintro ⟨⟨hactive, hpending, -⟩, hvalidating, hcopying, hclearing, -, hqueue⟩
    refine ⟨⟨hactive, hpending, fun o ho => hv (hvalidating.mpr ⟨o, ho⟩), ?_⟩, fun h => hqueue h.1 h.2⟩
    cases hop : s.se.stagedOp with
    | idle => rfl
    | copying => exact absurd (hcopying.mpr hop) hc
    | clearing => exact absurd (hclearing.mpr hop) hcl
  · rintro ⟨⟨hactive, hpending, hnot, hidle⟩, hqueue⟩
    have hop {x : StagedOp} (hx : x ≠ .idle) : s.se.stagedOp ≠ x := fun h => hx (h.symm.trans hidle)
    exact ⟨⟨hactive, hpending, fun h => (h.elim hc hcl).elim⟩,
      iff_of_false hv (fun ⟨o, ho⟩ => hnot o ho), iff_of_false hc (hop nofun), iff_of_false hcl (hop nofun),
      fun h => absurd hidle h, fun h h' => hqueue ⟨h, h'⟩⟩

/-- A command in flight is queued (R134). -/
theorem queued_of_law {s : State} (h : TablesLaw s) : Queued s := by
  obtain ⟨-, -, -, -, -, hqueue⟩ := h
  exact fun hx => hqueue hx.1 hx.2

/-- A state whose SE is at rest keeps the laws when its command completes (R136). -/
theorem tablesLaw_complete {u : State} (hrest : SeAtRest u.se) (hq : Queued u) (status : Status) (words : List Word) :
    TablesLaw (u.complete status words) := by
  cases hqueue : u.cp.queue with
  | nil =>
    have hsame : u.complete status words = u := by rw [State.complete, hqueue]
    rw [hsame]
    exact (tablesLaw_iff_of_seFree (seFree_of_not_atHead fun h => hq h hqueue)).mpr ⟨hrest, hq⟩
  | cons e rest =>
    have hflight : (u.complete status words).cp.flight = .none := by
      rw [complete_eq u e rest hqueue]
      cases e.origin <;> rfl
    refine (tablesLaw_iff_of_seFree (seFree_of_none hflight)).mpr ⟨?_, fun h => absurd hflight h.1⟩
    rwa [complete_se]

/-- The laws look at the SE, what is in flight, and whether a command is queued. -/
theorem tablesLaw_apart {s t : State} (h : Apart s t) (hs : TablesLaw s) : TablesLaw t := by
  obtain ⟨hse, hf, hq⟩ := h
  obtain ⟨hvalid, hv, hc, hcl, hop, hqueue⟩ := hs
  refine ⟨?_, ?_, ?_, ?_, ?_, fun hx hx' => ?_⟩
  · rw [Safety.ActiveValid, hse, hf]
    exact hvalid
  · rw [hf, hse]
    exact hv
  · rw [hf, hse]
    exact hc
  · rw [hf, hse]
    exact hcl
  · rw [hse]
    exact hop
  · rw [hf] at hx hx'
    exact hq.ne_nil (hqueue hx hx')

/-- Without a commit, or with a PENDING one whose STAGED bank is valid, an SE that neither copies nor clears is at
rest. -/
theorem seAtRest_setCommit {e : Se} {c : Commit} (hactive : e.active.validate = none)
    (hc : c = .none ∨ (∃ o, c = .pending o) ∧ e.staged.validate = none) (hop : e.stagedOp = .idle) :
    SeAtRest { e with commit := c } := by
  rcases hc with rfl | ⟨⟨o, rfl⟩, hstaged⟩
  · exact ⟨hactive, nofun, nofun, hop⟩
  · exact ⟨hactive, fun _ _ => hstaged, nofun, hop⟩

/-- A new STAGED bank leaves an SE without a commit at rest, once no staged operation is in flight. -/
theorem seAtRest_withStaged {e : Se} (b : Bank) (hactive : e.active.validate = none) (hn : e.commit = .none) :
    SeAtRest { e.withStaged b with stagedOp := .idle } where
  active := (congrArg Bank.validate (withStaged_active e b)).trans hactive
  pending o ho := by
    have hn' : (e.withStaged b).commit = .none := (withStaged_commit e b).trans hn
    cases hn'.symm.trans ho
  notValidating o ho := by
    have hn' : (e.withStaged b).commit = .none := (withStaged_commit e b).trans hn
    cases hn'.symm.trans ho
  idle := rfl

/-- While a commit is PENDING nothing in flight waits for the SE (R101, R108). -/
theorem seFree_of_pending {s : State} (h : TablesLaw s) {o : CommitOrder} (ho : s.se.commit = .pending o) :
    SeFree s.cp.flight := by
  obtain ⟨⟨-, -, hnot⟩, hv, -⟩ := h
  refine ⟨fun hf => ?_, fun hf => hnot (.inl hf) o ho, fun hf => hnot (.inr hf) o ho⟩
  obtain ⟨o', ho'⟩ := hv.mp hf
  cases ho.symm.trans ho'

/-- While a staged operation is in flight no commit stands (R101). -/
theorem commit_of_staged {s : State} (h : TablesLaw s) (hf : s.cp.flight = .copying ∨ s.cp.flight = .clearing) :
    s.se.commit = .none := by
  obtain ⟨-, -, hc, hcl, hop, -⟩ := h
  rcases hf with hf | hf
  · exact hop (by rw [hc.mp hf]; nofun)
  · exact hop (by rw [hcl.mp hf]; nofun)

/-- While a validation is in flight no staged operation is (R101, R108). -/
theorem stagedOp_of_validating {s : State} (h : TablesLaw s) (hf : s.cp.flight = .validating) :
    s.se.stagedOp = .idle := by
  obtain ⟨-, -, hc, hcl, -⟩ := h
  cases hop : s.se.stagedOp with
  | idle => rfl
  | copying => cases hf.symm.trans (hc.mpr hop)
  | clearing => cases hf.symm.trans (hcl.mpr hop)

/-- A staged operation goes into flight (R99, R100, R101). -/
theorem tablesLaw_startStaged {s : State} {op : StagedOp} {x : Flight} (hactive : s.se.active.validate = none)
    (hn : s.se.commit = .none) (hq : s.cp.queue ≠ [])
    (hx : (op = .copying ∧ x = .copying) ∨ (op = .clearing ∧ x = .clearing)) :
    TablesLaw (State.setFlight { s with se := { s.se with stagedOp := op } } x) := by
  have hnone (c : Commit) (hc : c ≠ .none) : s.se.commit ≠ c := fun h => hc (h.symm.trans hn)
  refine ⟨⟨hactive, fun o ho => absurd ho (hnone _ nofun), fun _ o => hnone _ nofun⟩, ?_, ?_, ?_, fun _ => hn,
    fun _ _ => hq⟩
  · refine iff_of_false ?_ (fun ⟨o, ho⟩ => hnone (.validating o) nofun ho)
    rcases hx with ⟨-, rfl⟩ | ⟨-, rfl⟩ <;> nofun
  · rcases hx with ⟨rfl, rfl⟩ | ⟨rfl, rfl⟩
    · exact iff_of_true rfl rfl
    · exact iff_of_false nofun nofun
  · rcases hx with ⟨rfl, rfl⟩ | ⟨rfl, rfl⟩
    · exact iff_of_false nofun nofun
    · exact iff_of_true rfl rfl

/-- A validation begins (R107, R108). -/
theorem tablesLaw_startValidation {s : State} (o : CommitOrder) (hactive : s.se.active.validate = none)
    (hop : s.se.stagedOp = .idle) (hq : s.cp.queue ≠ []) :
    TablesLaw ((s.setCommit (.validating o)).setFlight .validating) := by
  have hidle {x : StagedOp} (hx : x ≠ .idle) : s.se.stagedOp ≠ x := fun h => hx (h.symm.trans hop)
  exact ⟨⟨hactive, nofun, fun _ _ => nofun⟩, iff_of_true rfl ⟨o, rfl⟩, iff_of_false nofun (hidle nofun),
    iff_of_false nofun (hidle nofun), fun h => absurd hop h, fun _ _ => hq⟩

/-- Every move of the tables keeps the laws. -/
theorem tablesLaw_of_move {s t : State} (hm : TableMove s t) (h : TablesLaw s) : TablesLaw t := by
  have hq := queued_of_law h
  have ⟨⟨hactive, _, _⟩, _⟩ := h
  have rest (hfree : SeFree s.cp.flight) : SeAtRest s.se := ((tablesLaw_iff_of_seFree hfree).mp h).1
  cases hm with
  | apart ha => exact tablesLaw_apart ha h
  | records a r hse hcp =>
    rw [TablesLaw, Safety.ActiveValid, Safety.InFlight, hse, hcp]
    exact h
  | complete hfree status words => exact tablesLaw_complete (rest hfree) hq status words
  | fly x hfree hx hhead =>
    exact (tablesLaw_iff_of_seFree hx).mpr ⟨rest hfree, fun hx' => (hhead hx').elim id hq⟩
  | resetCp hfree hne =>
    have hfree' : SeFree s.resetCp.cp.flight := ⟨nofun, nofun, nofun⟩
    refine (tablesLaw_iff_of_seFree hfree').mpr ⟨rest hfree, fun _ htake => hne ?_⟩
    exact (List.take_eq_nil_iff.mp htake).resolve_left Nat.one_ne_zero
  | edit b hfree hn =>
    have hrest := seAtRest_withStaged b hactive hn
    have hop : (s.se.withStaged b).stagedOp = .idle := (withStaged_stagedOp s.se b).trans (rest hfree).idle
    have hsame : { s.se.withStaged b with stagedOp := .idle } = s.se.withStaged b := by rw [← hop]
    rw [hsame] at hrest
    exact (tablesLaw_iff_of_seFree (s := { s with se := s.se.withStaged b }) hfree).mpr ⟨hrest, hq⟩
  | drop hpending =>
    have hfree := seFree_of_pending h hpending
    exact (tablesLaw_iff_of_seFree (s := s.setCommit .none) hfree).mpr
      ⟨seAtRest_setCommit hactive (.inl rfl) (rest hfree).idle, hq⟩
  | startStaged op x hfree hne hn hx => exact tablesLaw_startStaged hactive hn hne hx
  | endStaged b hf words =>
    exact tablesLaw_complete (u := { s with se := { s.se.withStaged b with stagedOp := .idle } })
      (seAtRest_withStaged b hactive (commit_of_staged h hf)) hq _ _
  | startValidation o hfree hne hop => exact tablesLaw_startValidation o hactive hop hne
  | endValidation c hf hc hse hcp status words =>
    refine tablesLaw_complete ?_ ?_ status words
    · rw [hse]
      exact seAtRest_setCommit hactive hc (stagedOp_of_validating h hf)
    · rw [Queued, hcp]
      exact hq

theorem tablesLaw_of_moves {s t : State} (hm : TableMoves s t) (h : TablesLaw s) : TablesLaw t := by
  induction hm with
  | refl => exact h
  | tail _ hmove ih => exact tablesLaw_of_move hmove ih

/-! ### The resets and the swap keep the laws -/

theorem seAtRest_reset : SeAtRest .reset := ⟨validate_empty, nofun, nofun, rfl⟩

/-- A RESET is in flight (R185, R186). -/
def Resetting (s : State) : Prop := ∃ level g, s.cp.flight = .resetting level g

theorem seFree_of_resetting {s : State} (h : Resetting s) : SeFree s.cp.flight := by
  obtain ⟨level, g, h⟩ := h
  rw [h]
  exact ⟨nofun, nofun, nofun⟩

/-- The requests of RESET keep it in flight up to the one that builds the reply (R185, R186). -/
theorem resetStep_resetting (level : ResetLevel) (s : State) (g : ResetStep) (hg : g ≠ .reply) :
    Resetting (s.resetStep level g) := by
  cases g with
  | se => exact ⟨level, .iq, rfl⟩
  | iq => cases level <;> exact ⟨_, .rpu, rfl⟩
  | rpu => cases level <;> exact ⟨_, .mu, rfl⟩
  | mu => cases level <;> exact ⟨_, .reply, rfl⟩
  | reply => exact absurd rfl hg

/-- The requests of a RESET in flight other than that of the SE and the reply leave the tables and the queue as they
are (R186). -/
theorem resetStep_keeps (level : ResetLevel) (s : State) (g : ResetStep) (hse : g ≠ .se) (hreply : g ≠ .reply) :
    (s.resetStep level g).se = s.se ∧ (s.resetStep level g).cp.queue = s.cp.queue := by
  cases g with
  | se => exact absurd rfl hse
  | reply => exact absurd rfl hreply
  | iq => cases level <;> exact ⟨rfl, rfl⟩
  | rpu => cases level <;> simp [State.resetStep]
  | mu => cases level <;> simp [State.resetStep]

/-- One request of a RESET in flight keeps the laws (R123, R185, R186). -/
theorem tablesLaw_resetStep (level : ResetLevel) {s : State} (g : ResetStep) (hf : Resetting s) (h : TablesLaw s) :
    TablesLaw (s.resetStep level g) := by
  have hfree := seFree_of_resetting hf
  have ⟨hrest, hq⟩ := (tablesLaw_iff_of_seFree hfree).mp h
  have hne : s.cp.queue ≠ [] := by
    obtain ⟨level', g', hflight⟩ := hf
    exact hq (by rw [hflight]; exact ⟨nofun, nofun⟩)
  by_cases hreply : g = .reply
  · subst hreply
    exact tablesLaw_of_move (.complete hfree _ _) h
  · have hfree' := seFree_of_resetting (resetStep_resetting level s g hreply)
    by_cases hse : g = .se
    · subst hse
      exact (tablesLaw_iff_of_seFree hfree').mpr ⟨seAtRest_reset, fun _ => hne⟩
    · obtain ⟨hsame, hqueue⟩ := resetStep_keeps level s g hse hreply
      refine (tablesLaw_iff_of_seFree hfree').mpr ⟨hsame ▸ hrest, fun _ => ?_⟩
      rwa [hqueue]

/-- The reply is the last request of RESET (R185, R186). -/
theorem reply_notMem_dropLast_resetSteps (next last : ResetStep) : .reply ∉ (resetSteps next last).dropLast := by
  cases next <;> cases last <;> decide

/-- The bank that becomes ACTIVE at a swap has passed validation (R97, R113). -/
theorem seAtRest_swap {e : Se} (h : SeAtRest e) {o : CommitOrder} (ho : e.commit = .pending o)
    (a : Vector AxisRecord 16) (r : Vector TrackRecord 32) :
    SeAtRest { e.swap with axisRecords := a, trackRecords := r } :=
  ⟨h.pending o ho, nofun, nofun, h.idle⟩

theorem pending_of_swapDue {c : Commit} {cycle : Half} (h : c.swapDue cycle = true) : ∃ o, c = .pending o := by
  cases c with
  | pending o => exact ⟨o, rfl⟩
  | none | validating => cases h

theorem tablesLaw_evaluate {s : State} (f : Frame) (h : TablesLaw s) : TablesLaw (s.evaluate f) := by
  rcases evaluate_cases s f with ⟨hdue, a, r, hse, hcp⟩ | ⟨-, hm⟩
  · obtain ⟨o, ho⟩ := pending_of_swapDue hdue
    have hfree := seFree_of_pending h ho
    have ⟨hrest, hq⟩ := (tablesLaw_iff_of_seFree hfree).mp h
    refine (tablesLaw_iff_of_seFree (by rwa [hcp])).mpr ⟨?_, ?_⟩
    · rw [hse]
      exact seAtRest_swap hrest ho a r
    · rw [Queued, hcp]
      exact hq
  · exact tablesLaw_of_move hm h

/-- Every row keeps the laws. -/
theorem tablesLaw_of_exec {c : Instr} {s t : State} (ht : exec c s = .next t) (h : TablesLaw s) : TablesLaw t := by
  by_cases hpin : c = .resetPinAsserted
  · subst hpin
    cases ht
    exact (tablesLaw_iff_of_seFree seFree_none).mpr ⟨seAtRest_reset, fun hx => absurd rfl hx.1⟩
  by_cases hreset : ∃ last, c = .seTableReset last
  · obtain ⟨last, rfl⟩ := hreset
    rcases execSeTableReset_cases ht with rfl | ⟨-, level, next, hf, rfl⟩
    · exact h
    · exact foldl_requests (F := Resetting) (fun _ g hu => tablesLaw_resetStep level g hu)
        (fun u g hg _ => resetStep_resetting level u g hg) _ (reply_notMem_dropLast_resetSteps next last)
        ⟨level, next, hf⟩ h
  by_cases hsample : c = .sampleEvaluation
  · subst hsample
    rcases execSampleEvaluation_cases ht with rfl | ⟨-, f, handed, -, -, rfl⟩
    · exact h
    · exact tablesLaw_evaluate f h
  exact tablesLaw_of_moves (tableMoves_of_exec ht hpin (not_exists.mp hreset) hsample) h

/-- While no command waits neither the SE nor the CP does anything (log entry 3). -/
theorem apart_idle (s : State) : Apart s s.idle := by
  refine apart_of_same (idle_se s) ?_
  rcases pass_cases s.deliver with ⟨r, p, l, h⟩ | h <;> rw [State.idle, h] <;> exact deliver_cp s

/-- Settles O55: every row is a run of moves of the tables, a reset, or the evaluation of a frame, and each of them
keeps the two laws together. -/
theorem everyStepKeepsTheActiveBankValid : Obligations.EveryStepKeepsTheActiveBankValid := by
  intro s t hvalid hflight ht
  cases hp : s.pending with
  | nil =>
    rw [step, hp] at ht
    cases ht
    exact tablesLaw_apart (apart_idle s) ⟨hvalid, hflight⟩
  | cons c rest =>
    rw [step, hp] at ht
    exact tablesLaw_of_exec (s := { s with pending := rest }) ht ⟨hvalid, hflight⟩

end Sys2Proof.Proofs

/-!
PROOFS. The commands of the STAGED bank and of the commit: the edit lock, STAGE_COPY and STAGE_CLEAR, COMMIT and its
validation, CANCEL_COMMIT and the drop by BYPASS.
-/
namespace Sys2Proof.Proofs

open Sys2Proof.Machine Sys2Proof.Claims

/-! ### The edit lock (R98) -/

theorem locks_of_ne_none {c : Commit} (h : c ≠ .none) : c.locks = true := by
  cases c with
  | none => exact absurd rfl h
  | validating | pending => rfl

theorem not_locks_of_none {c : Commit} (h : c = .none) : ¬ c.locks = true := by
  rw [h]
  nofun

/-- A command whose code names it is carried out by its row once it has passed the general refusals (R135). -/
theorem begins_of_code {s : State} {e : CommandEntry} {rest : List CommandEntry} {c : Command} (hb : Begins s e rest)
    (hcode : e.code = some (codeOf c)) (hr : e.refusal = none) (own : CommandEntry → State) :
    s.begins c own = own e := by
  obtain ⟨hheld, hq, hf⟩ := hb
  have hc : e.command = some c := (ofByte_eq_some_iff _ _).mpr (by rw [CommandEntry.codeValue, hcode]; rfl)
  exact beginsIf_own s e rest _ own hheld hq hf (decide_eq_true hc) hr

theorem edit_of_locks {s : State} (h : s.se.commit.locks = true) (change : Bank → Bank) (words : Bank → List Word) :
    s.edit change words = s.complete .stageLocked [] := if_pos h

theorem startStaged_of_locks {s : State} (h : s.se.commit.locks = true) (op : StagedOp) (x : Flight) :
    s.startStaged op x = s.complete .stageLocked [] := if_pos h

theorem loadWindows_of_locks {s : State} (h : s.se.commit.locks = true) (e : CommandEntry) :
    s.loadWindows e = s.complete .stageLocked [] := if_pos h

/-- Settles O28: the edit lock is the first test of each of the eight rows. -/
theorem editLockRefusesEveryEdit : Obligations.EditLockRefusesEveryEdit := by
  intro s e rest code row hb hrow hcode hr hcommit
  have hlock := locks_of_ne_none hcommit
  have ⟨_, hq, _⟩ := hb
  rw [← complete_eq_finished hq]
  have begun (c : Command) (hc : code = codeOf c) (own : CommandEntry → State)
      (hown : own e = s.complete .stageLocked []) :
      Host.Outcome.next (φ := Fault) (ρ := Refusal) (s.begins c own) = .next (s.complete .stageLocked []) := by
    subst hc
    rw [begins_of_code hb hcode hr, hown]
  simp only [editRows, List.mem_cons, Prod.mk.injEq, List.not_mem_nil, or_false] at hrow
  rcases hrow with ⟨hc, rfl⟩ | ⟨hc, rfl⟩ | ⟨hc, rfl⟩ | ⟨hc, rfl⟩ | ⟨hc, rfl⟩ | ⟨hc, rfl⟩ | ⟨hc, rfl⟩ | ⟨hc, rfl⟩
  · exact begun .defineAxis hc _ (edit_of_locks hlock _ _)
  · exact begun .clearAxis hc _ (edit_of_locks hlock _ _)
  · exact begun .defineTrack hc _ (edit_of_locks hlock _ _)
  · exact begun .clearTrack hc _ (edit_of_locks hlock _ _)
  · exact begun .loadWindows hc _ (loadWindows_of_locks hlock e)
  · exact begun .stageCopy hc _ (startStaged_of_locks hlock _ _)
  · exact begun .stageClear hc _ (startStaged_of_locks hlock _ _)
  · exact begun .defineStatusSlot hc _ (edit_of_locks hlock _ _)

/-! ### STAGE_COPY and STAGE_CLEAR (R99, R100, R154, R155) -/

theorem startStaged_of_none {s : State} (h : s.se.commit = .none) (op : StagedOp) (x : Flight) :
    s.startStaged op x = { s with se := { s.se with stagedOp := op }, cp := { s.cp with flight := x } } :=
  if_neg (not_locks_of_none h)

/-- A command without argument words that passes the general refusals is carried out by its row. -/
theorem begins_of_no_args {s : State} {e : CommandEntry} {rest : List CommandEntry} {c : Command}
    (hb : Begins s e rest) (hc : Carries e (codeOf c) []) (hcount : 0 ∈ countsOf (codeOf c))
    (own : CommandEntry → State) : s.begins c own = own e :=
  begins_of_carries hb hc hcount (inRange_nil _) own

/-- The end of a staged operation completes the command that waits for it (R99, R100). -/
theorem exec_copyComplete {s : State} {e : CommandEntry} {rest : List CommandEntry} (hw : Waits s e rest .copying) :
    exec .copyComplete s = .next (finished
      { s with se := { s.se.withStaged s.se.active with stagedOp := .idle } } e rest .ok [numWord s.se.generation.toNat]) := by
  obtain ⟨hheld, hq, hf⟩ := hw
  refine (if_pos (by simp [hheld, hf])).trans (congrArg _ (complete_eq_finished ?_ _ _))
  exact hq

theorem exec_clearComplete {s : State} {e : CommandEntry} {rest : List CommandEntry} (hw : Waits s e rest .clearing) :
    exec .clearComplete s = .next (finished { s with se := { s.se.withStaged .empty with stagedOp := .idle } } e rest
      .ok []) := by
  obtain ⟨hheld, hq, hf⟩ := hw
  refine (if_pos (by simp [hheld, hf])).trans (congrArg _ (complete_eq_finished ?_ _ _))
  exact hq

/-- Settles O32: with no commit the edit lock is open, and each completion waits for its own flight. -/
theorem stagedOperationsStartAndComplete : Obligations.StagedOperationsStartAndComplete := by
  refine fun s e rest => ⟨fun hb hn hc => ?_, fun hb hn hc => ?_, exec_copyComplete, exec_clearComplete⟩
  · exact congrArg _ ((begins_of_no_args (c := .stageCopy) hb hc (by decide) _).trans (startStaged_of_none hn _ _))
  · exact congrArg _ ((begins_of_no_args (c := .stageClear) hb hc (by decide) _).trans (startStaged_of_none hn _ _))

/-! ### COMMIT (R107, R121, R156) -/

/-- A target counts as overtaken when the commit is AT_CYCLE, a cycle has been seen, and the target is not strictly
ahead of it (R107, R110; log entry 21). -/
theorem overtaken_iff (o : CommitOrder) (last : Option Half) :
    o.overtaken last = true ↔ o.mode = .atCycle ∧ ∃ l, last = some l ∧ strictlyAhead o.target l = false := by
  unfold CommitOrder.overtaken
  cases o.mode <;> cases last <;> simp

theorem not_overtaken {o : CommitOrder} {last : Option Half}
    (h : ∀ l, o.mode = .atCycle → last = some l → strictlyAhead o.target l = true) : ¬ o.overtaken last = true := by
  rw [overtaken_iff]
  rintro ⟨hmode, l, hl, hahead⟩
  cases (h l hmode hl).symm.trans hahead

/-- Only a commit that came by broadcast is reported (R121). -/
theorem reportTooLate_eq (s : State) (o : CommitOrder) :
    s.reportTooLate o = if o.origin = .broadcast then
      s.send [[.fault { code := .commitTooLate, subject := 0#8, detail := o.target }]] else s := by
  unfold State.reportTooLate
  cases o.origin <;> rfl

/-- The error codes of Table 1-10. -/
theorem errorNumber_eq (c : ErrorCode) : errorNumber c = c.code := by
  cases c <;> rfl

/-- Only a commit that came by broadcast is reported (R109, R121). -/
theorem reportFailed_eq (s : State) (o : CommitOrder) (item : Item) :
    s.reportFailed o item = if o.origin = .broadcast then
      s.send [[.fault { code := .broadcastCommitFailed, subject := BitVec.ofNat 8 item.subject
                        detail := BitVec.ofNat 16 (errorNumber item.code * 256 + item.detail % 256) }]] else s := by
  rw [errorNumber_eq]
  unfold State.reportFailed
  cases o.origin <;> rfl

theorem numWord_half (h : Half) : (numWord h.toNat).toNat = h.toNat := numWord_toNat (by have := h.isLt; omega)

/-- The commit that COMMIT asks for, word by word (R107). -/
theorem commitOrder_of_carries {e : CommandEntry} {atCycle : Bool} {target : Half}
    (hc : Carries e 0x20#8 [if atCycle then 1#32 else 0#32, numWord target.toNat]) :
    e.commitOrder
      = { mode := if atCycle then .atCycle else .immediate, target := target, origin := e.origin } := by
  have hmode : e.num 0 = if atCycle then 1 else 0 := (num_of_carries hc 0).trans (flag_toNat atCycle)
  have htarget : e.num 1 = target.toNat := (num_of_carries hc 1).trans (numWord_half target)
  cases atCycle <;> simp [CommandEntry.commitOrder, CommitMode.ofCode, hmode, htarget]

/-- COMMIT makes its checks on the commit it asks for (R107, R156). -/
theorem exec_commit {s : State} {e : CommandEntry} {rest : List CommandEntry} {atCycle : Bool} {target : Half}
    (hb : Begins s e rest) (hc : Carries e 0x20#8 [if atCycle then 1#32 else 0#32, numWord target.toNat]) :
    exec .commit s = .next (s.startCommit
      { mode := if atCycle then .atCycle else .immediate, target := target, origin := e.origin }) := by
  have hmax := target.isLt
  have htarget : Within (numWord target.toNat) (0, 65535) := by
    rw [Within, numWord_half]
    exact ⟨Nat.zero_le _, by omega⟩
  refine congrArg _ ((begins_of_carries (c := .commit) hb hc (List.mem_singleton.mpr rfl)
    (inRange_of_forall₂ (.cons (within_flag atCycle) (.cons htarget .nil))) _).trans ?_)
  rw [commitOrder_of_carries hc]

/-- The second check of R107: a commit stands or a staged operation is in flight. -/
theorem stageBusy_iff (e : Se) :
    (e.commit.locks || decide (e.stagedOp ≠ .idle)) = true ↔ e.commit ≠ .none ∨ e.stagedOp ≠ .idle := by
  rw [Bool.or_eq_true, decide_eq_true_eq]
  exact or_congr_left ⟨fun h hn => not_locks_of_none hn h, locks_of_ne_none⟩

theorem startCommit_of_busy {s : State} (hmode : s.rpu.mode ≠ .bypass)
    (h : s.se.commit ≠ .none ∨ s.se.stagedOp ≠ .idle) (o : CommitOrder) :
    s.startCommit o = s.complete .stageLocked [] := by
  rw [State.startCommit, if_neg hmode, if_pos ((stageBusy_iff _).mpr h)]

/-- Past the first two checks the target decides (R107). -/
theorem startCommit_of_ready {s : State} (hmode : s.rpu.mode ≠ .bypass) (hn : s.se.commit = .none)
    (hop : s.se.stagedOp = .idle) (o : CommitOrder) :
    s.startCommit o = if o.overtaken s.rpu.lastCycle then (s.reportTooLate o).complete .tooLate []
      else { s with se := { s.se with commit := .validating o }, cp := { s.cp with flight := .validating } } := by
  have hready : ¬ (s.se.commit ≠ .none ∨ s.se.stagedOp ≠ .idle) := fun h => h.elim (absurd hn) (absurd hop)
  rw [State.startCommit, if_neg hmode, if_neg (mt (stageBusy_iff _).mp hready)]
  rfl

/-- Settles O33: by the check that decides. -/
theorem commitIsCheckedThenValidated : Obligations.CommitIsCheckedThenValidated := by
  intro s e rest atCycle target o hb hc ho
  have ⟨_, hq, _⟩ := hb
  rw [exec_commit hb hc, ← ho]
  have hmodeAt : o.mode = .atCycle ↔ atCycle = true := by subst ho; cases atCycle <;> simp
  have htarget : o.target = target := by rw [ho]
  have horigin : o.origin = e.origin := by rw [ho]
  refine ⟨fun hmode => ?_, fun hmode hbusy => ?_, fun l hmode hn hop hat hl hahead => ?_,
    fun hmode hn hop hahead => ?_⟩
  · exact congrArg _ ((if_pos hmode).trans (complete_eq_finished hq _ _))
  · exact congrArg _ ((startCommit_of_busy hmode hbusy o).trans (complete_eq_finished hq _ _))
  · have hover : o.overtaken s.rpu.lastCycle = true :=
      (overtaken_iff _ _).mpr ⟨hmodeAt.mpr hat, l, hl, htarget ▸ hahead⟩
    rw [startCommit_of_ready hmode hn hop, if_pos hover,
      complete_eq_finished (e := e) (rest := rest) (by rw [reportTooLate_cp, hq]), reportTooLate_eq, horigin, htarget]
  · rw [startCommit_of_ready hmode hn hop, if_neg (not_overtaken ?_)]
    exact fun l hat hl => htarget ▸ hahead l (hmodeAt.mp hat) hl

/-! ### The end of a validation (R109, R110, R121) -/

theorem exec_validationComplete {s : State} {e : CommandEntry} {rest : List CommandEntry} {o : CommitOrder}
    (hw : Waits s e rest .validating) (ho : s.se.commit = .validating o) :
    exec .validationComplete s = .next (s.finishValidation o) := by
  obtain ⟨hheld, -, hf⟩ := hw
  show execValidationComplete s = _
  rw [execValidationComplete, if_neg (by simp [hheld]), hf, ho]

theorem finishValidation_of_failed {s : State} {item : Item} (h : s.se.staged.validate = some item) (o : CommitOrder) :
    s.finishValidation o = ((s.setCommit .none).reportFailed o item).complete .validationFailed
      [numWord item.code.code, numWord item.subject, numWord item.detail] := by
  rw [State.finishValidation, h]

/-- Past the validation the target decides (R110). -/
theorem finishValidation_of_passed {s : State} (h : s.se.staged.validate = none) (o : CommitOrder) :
    s.finishValidation o = if o.overtaken s.rpu.lastCycle then
        ((s.setCommit .none).reportTooLate o).complete .tooLate []
      else (s.setCommit (.pending o)).complete .ok
        [numWord o.mode.code, numWord o.target.toNat, numWord s.se.generation.toNat] := by
  rw [State.finishValidation, h]

/-- The word of a commit mode (R13). -/
theorem modeWord_eq (m : CommitMode) : numWord m.code = if m = .atCycle then 1#32 else 0#32 := by
  cases m <;> rfl

/-- Settles O34: the STAGED bank's validation decides first, then the target. -/
theorem validationEndsTheCommit : Obligations.ValidationEndsTheCommit := by
  rintro s e rest o u hw ho rfl
  have ⟨_, hq, _⟩ := hw
  have hnone : ({ s with se := { s.se with commit := .none } } : State) = s.setCommit .none := rfl
  rw [exec_validationComplete hw ho, hnone]
  refine ⟨fun item n hitem hn => ?_, fun l hvalid hmode hl hahead => ?_, fun hvalid hahead => ?_⟩
  · rw [finishValidation_of_failed hitem,
      complete_eq_finished (e := e) (rest := rest) (by rw [reportFailed_cp, setCommit_cp, hq]), reportFailed_eq, hn,
      errorNumber_eq]
  · have hover : o.overtaken s.rpu.lastCycle = true := (overtaken_iff _ _).mpr ⟨hmode, l, hl, hahead⟩
    rw [finishValidation_of_passed hvalid, if_pos hover,
      complete_eq_finished (e := e) (rest := rest) (by rw [reportTooLate_cp, setCommit_cp, hq]), reportTooLate_eq]
  · rw [finishValidation_of_passed hvalid, if_neg (not_overtaken hahead),
      complete_eq_finished (e := e) (rest := rest) (by rw [setCommit_cp, hq]), modeWord_eq]
    rfl

/-! ### CANCEL_COMMIT, BYPASS and COMMIT_DROP (R118, R120, R157, R168, R177) -/

/-- CANCEL_COMMIT drops a PENDING commit (R118, R157). -/
theorem exec_cancelCommit_of_pending {s : State} {e : CommandEntry} {rest : List CommandEntry} {o : CommitOrder}
    (hb : Begins s e rest) (hc : Carries e 0x21#8 []) (ho : s.se.commit = .pending o) :
    exec .cancelCommit s = .next (finished { s with se := { s.se with commit := .none } } e rest .ok
      [numWord o.mode.code, numWord o.target.toNat]) := by
  refine congrArg _ ((begins_of_no_args (c := .cancelCommit) hb hc (by decide) _).trans ?_)
  have ⟨_, hq, _⟩ := hb
  rw [ho]
  refine complete_eq_finished ?_ _ _
  exact hq

/-- CANCEL_COMMIT finds nothing to drop otherwise (R157). -/
theorem exec_cancelCommit_of_not_pending {s : State} {e : CommandEntry} {rest : List CommandEntry}
    (hb : Begins s e rest) (hc : Carries e 0x21#8 []) (hnot : ∀ o, s.se.commit ≠ .pending o) :
    exec .cancelCommit s = .next (finished s e rest .nothingPending []) := by
  refine congrArg _ ((begins_of_no_args (c := .cancelCommit) hb hc (by decide) _).trans ?_)
  have ⟨_, hq, _⟩ := hb
  rw [← complete_eq_finished hq]
  cases hcommit : s.se.commit with
  | pending o => exact absurd hcommit (hnot o)
  | none | validating => rfl

theorem exec_bypass {s : State} {e : CommandEntry} {rest : List CommandEntry} (hb : Begins s e rest)
    (hc : Carries e 0x51#8 []) :
    exec .bypass s = .next (if s.rpu.mode = .running then (s.setMode .bypass).setFlight .dropping
      else s.complete .wrongMode []) :=
  congrArg _ (begins_of_no_args (c := .bypass) hb hc (by decide) _)

/-- The SE drops a PENDING commit and tells what it dropped (R120). -/
theorem dropCommit_of_pending {s : State} {o : CommitOrder} (h : s.se.commit = .pending o) :
    s.dropCommit = (s.setCommit .none).setFlight (.dropped (some o)) := by
  rw [State.dropCommit, h]
  rfl

/-- Without a PENDING commit the SE drops nothing (R120). -/
theorem dropCommit_of_not_pending {s : State} (h : ∀ o, s.se.commit ≠ .pending o) :
    s.dropCommit = s.setFlight (.dropped none) := by
  unfold State.dropCommit
  cases hc : s.se.commit with
  | pending o => exact absurd hc (h o)
  | none | validating => rfl

theorem droppedWords_some (o : CommitOrder) :
    droppedWords (some o) = [1#32, if o.mode = .atCycle then 1#32 else 0#32, numWord o.target.toNat] := by
  rw [← modeWord_eq]
  rfl

/-- The reply of BYPASS, once the SE has told what it dropped (R168, R177). -/
theorem replyDropped_setFlight {s : State} {e : CommandEntry} {rest : List CommandEntry} (hq : s.cp.queue = e :: rest)
    (c : Option CommitOrder) :
    (s.setFlight (.dropped c)).replyDropped = finished s e rest .ok (droppedWords c) := by
  have hqueue : (s.setFlight (.dropped c)).cp.queue = e :: rest := hq
  exact (complete_eq_finished hqueue .ok (droppedWords c)).trans (finished_setFlight _ _ _ _ _ _)

/-- COMMIT_DROP takes the first of its requests alone or both, as `pauses` says (R120, R177; log entry 7). -/
theorem exec_commitDrop {s : State} {e : CommandEntry} {rest : List CommandEntry} (hw : Waits s e rest .dropping)
    {u : State} {c : Option CommitOrder} (hq : u.cp.queue = e :: rest)
    (hdrop : s.nextPause.dropCommit = u.setFlight (.dropped c)) :
    (s.pauses.head? = some true → exec .commitDrop s = .next (u.setFlight (.dropped c)))
      ∧ (s.pauses.head? ≠ some true → exec .commitDrop s = .next (finished u e rest .ok (droppedWords c))) := by
  obtain ⟨hheld, -, hf⟩ := hw
  have hexec : exec .commitDrop s
      = .next (if s.pausing then u.setFlight (.dropped c) else (u.setFlight (.dropped c)).replyDropped) := by
    show execCommitDrop s = _
    rw [execCommitDrop, if_neg (by simp [hheld]), hf, hdrop]
  rw [hexec, replyDropped_setFlight hq]
  exact ⟨fun hp => congrArg _ (if_pos ((pausing_iff s).mpr hp)),
    fun hp => congrArg _ (if_neg (mt (pausing_iff s).mp hp))⟩

/-- The second request alone, when the first has been taken before (R177; log entry 7). -/
theorem exec_commitDrop_dropped {s : State} {e : CommandEntry} {rest : List CommandEntry} {c : Option CommitOrder}
    (hw : Waits s e rest (.dropped c)) : exec .commitDrop s = .next (finished s e rest .ok (droppedWords c)) := by
  obtain ⟨hheld, hq, hf⟩ := hw
  have hreply : s.replyDropped = finished s e rest .ok (droppedWords c) := by
    rw [State.replyDropped, hf]
    exact complete_eq_finished hq _ _
  show execCommitDrop s = _
  rw [execCommitDrop, if_neg (by simp [hheld]), hf, hreply]

/-- Settles O35: CANCEL_COMMIT by the commit state, BYPASS by the mode, COMMIT_DROP by what the SE drops. -/
theorem cancelAndBypassDropThePendingCommit : Obligations.CancelAndBypassDropThePendingCommit := by
  refine ⟨fun s e rest hb hc => ⟨fun o ho => ?_, exec_cancelCommit_of_not_pending hb hc⟩,
    fun s e rest => ⟨fun hb hc hmode => ?_, fun hb hc hmode => ?_, fun o hw ho => ?_, fun hw hnot => ?_,
      fun o hw => ?_, exec_commitDrop_dropped⟩⟩
  · rw [exec_cancelCommit_of_pending hb hc ho, modeWord_eq]
  · rw [exec_bypass hb hc, if_pos hmode]
    rfl
  · have ⟨_, hq, _⟩ := hb
    rw [exec_bypass hb hc, if_neg hmode, complete_eq_finished hq]
  · have ⟨_, hq, _⟩ := hw
    rw [← droppedWords_some]
    exact exec_commitDrop hw (u := s.nextPause.setCommit .none) hq (dropCommit_of_pending ho)
  · have ⟨_, hq, _⟩ := hw
    exact exec_commitDrop hw (u := s.nextPause) hq (dropCommit_of_not_pending hnot)
  · rw [← droppedWords_some]
    exact exec_commitDrop_dropped hw

end Sys2Proof.Proofs

/-!
PROOFS. The swap: when it is due, what it switches, and which records it keeps.
-/
namespace Sys2Proof.Proofs

open Sys2Proof.Machine Sys2Proof.Claims

/-! ### When a swap is due (R112) -/

theorem swapDue_iff (c : Commit) (cycle : Half) :
    c.swapDue cycle = true ↔ ∃ o, c = .pending o ∧ (o.mode = .immediate ∨ atOrAfter cycle o.target = true) := by
  cases c <;> simp [Commit.swapDue]

/-- No swap is due when a PENDING commit is AT_CYCLE and its target not yet reached. -/
theorem swapDue_of_not_reached {c : Commit} {cycle : Half}
    (h : ∀ o, c = .pending o → o.mode = .atCycle ∧ atOrAfter cycle o.target = false) : c.swapDue cycle = false := by
  rw [← Bool.not_eq_true, swapDue_iff]
  rintro ⟨o, ho, hdue⟩
  obtain ⟨hmode, htarget⟩ := h o ho
  simp [hmode, htarget] at hdue

/-- Behind the swap test the evaluation of a frame leaves the selector, the generation and the commit alone (R48). -/
theorem evaluated_control (e : Se) (f : Frame) :
    (e.evaluated f).selector = (swapped e f).selector ∧ (e.evaluated f).generation = (swapped e f).generation
      ∧ (e.evaluated f).commit = (swapped e f).commit := ⟨rfl, rfl, rfl⟩

/-! ### Latch COMMIT_DONE behind an evaluation (R113, R195) -/

/-- Notices taken one behind the other set latch COMMIT_DONE when a report to it is among them, and leave it as it is
otherwise (R195). -/
theorem foldl_take_commitDone (cycle : Option Half) (l : List Notice) (m : Mu) :
    (l.foldl (fun m n => m.take cycle n) m).latches.commitDone
      = (m.latches.commitDone || decide (.latch .commitDone ∈ l)) := by
  induction l generalizing m with
  | nil => simp
  | cons n rest ih =>
    rw [List.foldl_cons, ih]
    cases n with
    | count c => simp [Mu.take, Mu.count]
    | fault r => simp [Mu.take, Mu.report]
    | latch x => cases x <;> simp [Mu.take, Mu.latch]

/-- With nothing to hold the MU back, a report to latch COMMIT_DONE has been taken. -/
theorem commitDone_of_told {s t : State} {told : List Notice} (h : Tells s t told) (hl : s.lag = [])
    (hmem : .latch .commitDone ∈ told) : t.mu.latches.commitDone = true := by
  obtain ⟨taken, hmu, hperm, hnone⟩ := h
  rw [hnone hl, List.flatMap_nil, List.append_nil] at hperm
  have htaken : .latch .commitDone ∈ taken := hperm.mem_iff.mpr (List.mem_append_right _ hmem)
  rw [hmu, foldl_take_commitDone, decide_eq_true htaken, Bool.or_true]

/-- With nothing on its way and no report to it told, latch COMMIT_DONE stays as it is. -/
theorem commitDone_of_not_told {s t : State} {told : List Notice} (h : Tells s t told) (hw : s.onWay = [])
    (hmem : .latch .commitDone ∉ told) : t.mu.latches.commitDone = s.mu.latches.commitDone := by
  obtain ⟨taken, hmu, hperm, -⟩ := h
  rw [hw, List.flatMap_nil, List.nil_append] at hperm
  have htaken : .latch .commitDone ∉ taken := fun hin => hmem (hperm.subset (List.mem_append_left _ hin))
  rw [hmu, foldl_take_commitDone, decide_eq_false htaken, Bool.or_false]

/-! ### The records through a swap (R114 to R116) -/

theorem continues_iff (old new : AxisDef) :
    old.continues new = true ↔ old.source = new.source ∧ old.kind = new.kind ∧ old.modulus = new.modulus :=
  decide_eq_true_iff

/-- An axis that goes on keeps its record, or enters LOST (R114, R115). -/
theorem swappedAxis_of_continues {c d : AxisDef} (h : c.continues d = true) (r : AxisRecord) :
    swappedAxis (some c) (some d) r = if (r.state = .acquiring ∨ r.state = .coasting) ∧ d.stale.toNat ≤ r.missed.toNat
      then { r with state := .lost } else r := by
  simp only [swappedAxis, if_pos h, AxisRecord.lostUnder, decide_eq_true_eq]

/-- An axis that does not go on begins in WAITING (R114). -/
theorem swappedAxis_of_not_continues {c d : AxisDef} (h : ¬ c.continues d = true) (r : AxisRecord) :
    swappedAxis (some c) (some d) r = .cleared .waiting := by
  simp only [swappedAxis, if_neg h]

/-- An axis without a definition is UNBOUND (R114). -/
theorem swappedAxis_none (old : Option AxisDef) (r : AxisRecord) : swappedAxis old none r = .cleared .unbound := by
  cases old <;> rfl

theorem swap_trackRecords (e : Se) (k : Fin 32) :
    e.swap.trackRecords[k] = if trackContinues e.active.tracks[k] e.staged.tracks[k] then e.trackRecords[k]
      else .cleared := by
  simp [Se.swap]

theorem trackContinues_iff (old new : Option TrackDef) :
    trackContinues old new = true ↔ ∃ c d, old = some c ∧ new = some d ∧ c.enabled = true ∧ d.enabled = true
      ∧ c.axis = d.axis ∧ c.slot = d.slot ∧ c.bit = d.bit := by
  cases old <;> cases new <;> simp [trackContinues]

/-- Settles O50: the evaluation of a frame swaps exactly when a swap is due; the records by what goes on. -/
theorem swapSwitchesTheRecipe : Obligations.SwapSwitchesTheRecipe := by
  refine ⟨fun s f handed hev => ?_, fun e i k =>
    ⟨fun c d hc hd hsource hkind hmodulus => ?_, fun c d hc hd hdiffers => ?_, fun d hc hd => ?_, fun hd => ?_,
      fun c d hc hd hon hon' haxis hslot hbit => ?_, fun hnot => ?_⟩⟩
  · have ⟨hheld, _, _⟩ := hev
    have htells := tells_evaluate hheld f
    obtain ⟨hA, hB, -⟩ := swapped_keeps s.se f
    obtain ⟨mu, onWay, lag, n, ht⟩ := evaluate_eq s f
    have hse : (s.evaluate f).se = s.se.evaluated f := by rw [ht]
    refine ⟨s.evaluate f, toldOfFrame s.se f, exec_sampleEvaluation hev, htells, ?_⟩
    obtain ⟨hselector, hgeneration, hcommit⟩ := evaluated_control s.se f
    rw [hse, commitDone_mem_toldOfFrame_iff, hselector, hgeneration, hcommit]
    refine ⟨hA, hB, fun o ho hreached => ?_, fun hnot => ?_⟩
    · have hdue : s.se.commit.swapDue (cycleOf f) = true := (swapDue_iff _ _).mpr ⟨o, ho, hreached⟩
      have hswapped : swapped s.se f = s.se.swap := if_pos hdue
      rw [hswapped]
      exact ⟨swap_selector_ne s.se, rfl, rfl, hdue,
        fun hl => commitDone_of_told htells hl ((commitDone_mem_toldOfFrame_iff _ _).mpr hdue)⟩
    · have hdue := swapDue_of_not_reached hnot
      have hswapped : swapped s.se f = s.se := if_neg (by simp [hdue])
      rw [hswapped]
      refine ⟨rfl, rfl, rfl, by simp [hdue], fun hw => commitDone_of_not_told htells hw ?_⟩
      rw [commitDone_mem_toldOfFrame_iff, hdue]
      exact Bool.false_ne_true
  · rw [swap_axisRecords, hc, hd]
    exact swappedAxis_of_continues ((continues_iff c d).mpr ⟨hsource, hkind, hmodulus⟩) _
  · rw [swap_axisRecords, hc, hd]
    refine swappedAxis_of_not_continues (fun h => ?_) _
    obtain ⟨hsource, hkind, hmodulus⟩ := (continues_iff c d).mp h
    exact hdiffers.elim (absurd hsource) (fun h => h.elim (absurd hkind) (absurd hmodulus))
  · rw [swap_axisRecords, hc, hd]
    rfl
  · rw [swap_axisRecords, hd]
    exact swappedAxis_none _ _
  · rw [swap_trackRecords, if_pos ((trackContinues_iff _ _).mpr ⟨c, d, hc, hd, hon, hon', haxis, hslot, hbit⟩)]
  · rw [swap_trackRecords, if_neg]
    rw [trackContinues_iff]
    rintro ⟨c, d, hc, hd, hon, hon', hsame⟩
    exact hnot c d hc hd hon hon' hsame

end Sys2Proof.Proofs

/-!
PROOFS. Validation: it passes exactly the banks that break no condition, and reports the first condition broken in the
order of the scan.
-/
namespace Sys2Proof.Proofs

open Sys2Proof.Machine Sys2Proof.Claims

/-! ### The first find of a scan -/

/-- A scan over the indices of a table finds what its first find gives. -/
theorem findSome?_finRange_eq_some_iff {α : Type} {n : Nat} {g : Fin n → Option α} {a : α} :
    (List.finRange n).findSome? g = some a ↔ ∃ i, g i = some a ∧ ∀ j < i, g j = none := by
  rw [← Fin.findSome?_eq_findSome?_finRange, Fin.findSome?_eq_some_iff]

theorem findSome?_finRange_eq_none_iff {α : Type} {n : Nat} {g : Fin n → Option α} :
    (List.finRange n).findSome? g = none ↔ ∀ i, g i = none := by
  rw [← Fin.findSome?_eq_findSome?_finRange, Fin.findSome?_eq_none_iff]

/-- A search through the indices of a table for the first that has a property. -/
theorem find?_finRange_eq_some_iff {n : Nat} {p : Fin n → Bool} {P : Fin n → Prop} (hp : ∀ i, p i = true ↔ P i)
    (i : Fin n) : (List.finRange n).find? p = some i ↔ P i ∧ ∀ j < i, ¬ P j := by
  simp only [← Fin.find?_eq_find?_finRange, Fin.find?_eq_some_iff, ← hp, Bool.not_eq_true]

theorem find?_finRange_eq_none_iff {n : Nat} {p : Fin n → Bool} {P : Fin n → Prop} (hp : ∀ i, p i = true ↔ P i) :
    (List.finRange n).find? p = none ↔ ∀ i, ¬ P i := by
  simp only [List.find?_eq_none, List.mem_finRange, forall_const, hp]

/-- A scan over the positions of a list finds what its first find gives. -/
theorem findSome?_range_eq_some {α : Type} {n : Nat} {g : Nat → Option α} {a : α}
    (h : (List.range n).findSome? g = some a) : ∃ i, i < n ∧ g i = some a ∧ ∀ j, j < i → g j = none := by
  induction n with
  | zero => cases h
  | succ n ih =>
    rw [List.range_succ, List.findSome?_append, Option.or_eq_some_iff] at h
    rcases h with h | ⟨hnone, h⟩
    · obtain ⟨i, hi, hfind⟩ := ih h
      exact ⟨i, Nat.lt_succ_of_lt hi, hfind⟩
    · rw [List.findSome?_singleton] at h
      refine ⟨n, Nat.lt_succ_self n, h, fun j hj => ?_⟩
      exact List.findSome?_eq_none_iff.mp hnone j (List.mem_range.mpr hj)

/-! ### The axes and the status slot (R103) -/

/-- No axis below an index has a source slot id. -/
def NoSourceBelow (b : Bank) (id : Byte) (j : Fin 16) : Prop :=
  ∀ (l : Fin 16) (d : AxisDef), l < j → b.axes[l] = some d → d.source ≠ id

/-- The axis found for a source slot id is the lowest that has it (R103). -/
theorem axisWithSource_eq_some_iff (b : Bank) (id : Byte) (j : Fin 16) :
    b.axisWithSource id = some j ↔ (∃ d, b.axes[j] = some d ∧ d.source = id) ∧ NoSourceBelow b id j := by
  rw [Bank.axisWithSource, find?_finRange_eq_some_iff (P := fun i => ∃ d, b.axes[i] = some d ∧ d.source = id)
    (fun i => by cases b.axes[i] <;> simp)]
  exact and_congr_right fun _ => ⟨fun h l d hl hd hs => h l hl ⟨d, hd, hs⟩, fun h l hl ⟨d, hd, hs⟩ => h l d hl hd hs⟩

theorem axisWithSource_eq_none_iff (b : Bank) (id : Byte) :
    b.axisWithSource id = none ↔ ∀ (i : Fin 16) (d : AxisDef), b.axes[i] = some d → d.source ≠ id := by
  refine ⟨fun h i d => axisWithSource_eq_none h, fun h => ?_⟩
  rw [Option.eq_none_iff_forall_ne_some]
  intro j hj
  obtain ⟨⟨d, hd, hs⟩, -⟩ := (axisWithSource_eq_some_iff b id j).mp hj
  exact h j d hd hs

/-- What step 1 of the scan finds at an axis: the lowest axis of the same source slot id, if it stands below (R103). -/
theorem axisFault_eq_some_iff (b : Bank) (i : Fin 16) (item : Item) :
    b.axisFault i = some item ↔ ∃ c j, b.axes[i] = some c ∧ b.axisWithSource c.source = some j ∧ j < i
      ∧ item = { code := .axisSlotClash, subject := i.val, detail := j.val } := by
  unfold Bank.axisFault
  cases hc : b.axes[i] with
  | none => simp
  | some c =>
    cases hj : b.axisWithSource c.source with
    | none => simp [hj]
    | some j => simp [hj, eq_comm]

/-- Step 1 of the scan finds nothing at an axis whose source slot id no axis below it has (R103). -/
theorem axisFault_eq_none_iff (b : Bank) (i : Fin 16) :
    b.axisFault i = none ↔ ∀ c, b.axes[i] = some c → NoSourceBelow b c.source i := by
  constructor
  · intro h c hc l d hl hd hs
    have hfound := axisWithSource_of_sound h hc
    exact absurd hs (((axisWithSource_eq_some_iff _ _ _).mp hfound).2 l d hl hd)
  · intro h
    rw [Option.eq_none_iff_forall_ne_some]
    intro item hitem
    obtain ⟨c, j, hc, hj, hlt, -⟩ := (axisFault_eq_some_iff b i item).mp hitem
    obtain ⟨⟨d, hd, hs⟩, -⟩ := (axisWithSource_eq_some_iff _ _ _).mp hj
    exact h c hc j d hlt hd hs

/-- Step 1 of the scan finds nothing exactly when no two axes share a source slot id (R103). -/
theorem axisFaults_eq_none_iff (b : Bank) : (∀ i, b.axisFault i = none) ↔ AxesSound b := by
  simp only [axisFault_eq_none_iff]
  constructor
  · intro h i j c d hc hd hs
    rcases lt_trichotomy i j with hlt | rfl | hlt
    · exact absurd hs (h j d hd i c hlt hc)
    · rfl
    · exact absurd hs.symm (h i c hc j d hlt hd)
  · intro h i c hc l d hl hd hs
    exact absurd (h l i d c hd hc hs) (ne_of_lt hl)

/-- What step 2 of the scan finds: the lowest axis whose source slot is the status slot (R103). -/
theorem statusFault_eq_some_iff (b : Bank) (item : Item) :
    b.statusFault = some item ↔ ∃ id j, b.statusSlot = some id ∧ b.axisWithSource id = some j
      ∧ item = { code := .slotRoleClash, subject := id.toNat, detail := j.val } := by
  unfold Bank.statusFault
  cases hid : b.statusSlot with
  | none => simp
  | some id =>
    cases hj : b.axisWithSource id with
    | none => simp [hj]
    | some j => simp [hj, eq_comm]

theorem statusFault_eq_none_iff (b : Bank) : b.statusFault = none ↔ StatusSound b := by
  rw [Option.eq_none_iff_forall_ne_some]
  constructor
  · intro h i c hc hs
    cases hj : b.axisWithSource c.source with
    | none => exact (axisWithSource_eq_none_iff b _).mp hj i c hc rfl
    | some j => exact h _ ((statusFault_eq_some_iff b _).mpr ⟨_, j, hs, hj, rfl⟩)
  · intro h item hitem
    obtain ⟨id, j, hid, hj, -⟩ := (statusFault_eq_some_iff b item).mp hitem
    obtain ⟨⟨d, hd, rfl⟩, -⟩ := (axisWithSource_eq_some_iff _ _ _).mp hj
    exact h j d hd hid

/-! ### The windows of a track (R105) -/

/-- A window reaches beyond the turn of a ROTARY axis (R105). -/
theorem beyondTurn_iff (c : AxisDef) (w : Window) :
    (c.kind = .rotary ∧ ((c.modulus : Int) ≤ readPosition c.kind w.on ∨ (c.modulus : Int) ≤ readPosition c.kind w.off))
      ↔ c.kind = .rotary ∧ (c.modulus ≤ w.on.toNat ∨ c.modulus ≤ w.off.toNat) := by
  refine and_congr_right fun hk => ?_
  simp only [hk, readPosition, Nat.cast_le]

theorem not_beyondTurn_iff (c : AxisDef) (w : Window) :
    ¬ (c.kind = .rotary ∧ (c.modulus ≤ w.on.toNat ∨ c.modulus ≤ w.off.toNat))
      ↔ (c.kind = .rotary → w.on.toNat < c.modulus ∧ w.off.toNat < c.modulus) := by
  rw [not_and, not_or, not_le, not_le]

/-- The conditions of a window, in the order of R105, of the window itself, the first of its list and the one before. -/
theorem windowFault_eq {l : List Window} {k : Nat} {w w0 v : Window} (hw : l[k]? = some w) (h0 : l[0]? = some w0)
    (hv : l[k - 1]? = some v) (c : AxisDef) :
    windowFault c l k =
      if readPosition c.kind w.on = readPosition c.kind w.off then some .windowEmpty
      else if c.kind = .rotary ∧ (c.modulus ≤ w.on.toNat ∨ c.modulus ≤ w.off.toNat) then some .windowRange
      else if readPosition c.kind w.off < readPosition c.kind w.on
          ∧ (c.kind = .linear ∨ k + 1 ≠ l.length ∨ readPosition c.kind w0.on < readPosition c.kind w.off) then
        some .windowWrapMisplaced
      else if 0 < k ∧ (readPosition c.kind w.on < readPosition c.kind v.off
          ∨ readPosition c.kind w.on ≤ readPosition c.kind v.on) then some .windowOrder
      else none := by
  simp only [windowFault, List.getD_eq_getElem?_getD, hw, h0, hv, Option.getD_some, beyondTurn_iff]

/-- A list with a window at a position has a first window, and one at the position before. -/
theorem first_and_previous {l : List Window} {k : Nat} {w : Window} (hw : l[k]? = some w) :
    (∃ w0, l[0]? = some w0) ∧ ∃ v, l[k - 1]? = some v := by
  obtain ⟨hk, -⟩ := List.getElem?_eq_some_iff.mp hw
  exact ⟨⟨_, List.getElem?_eq_getElem (by omega)⟩, ⟨_, List.getElem?_eq_getElem (by omega)⟩⟩

/-- A window that is no misplaced wrap: one that wraps is the last of a ROTARY axis's list and ends before the first
begins (R105). -/
theorem not_wrapMisplaced_iff (kind : AxisKind) (l : List Window) (k : Nat) (w w0 : Window) (h0 : l[0]? = some w0) :
    ¬ (readPosition kind w.off < readPosition kind w.on
        ∧ (kind = .linear ∨ k + 1 ≠ l.length ∨ readPosition kind w0.on < readPosition kind w.off))
      ↔ (readPosition kind w.off < readPosition kind w.on → kind = .rotary ∧ k + 1 = l.length
        ∧ ∀ w0, l[0]? = some w0 → readPosition kind w.off ≤ readPosition kind w0.on) := by
  have hkind : ¬ kind = .linear ↔ kind = .rotary := by cases kind <;> simp
  rw [not_and, not_or, not_or, hkind, not_not, not_lt]
  simp only [h0, Option.some.injEq, forall_eq']

theorem windowFault_eq_none_iff {l : List Window} {k : Nat} {w : Window} (hw : l[k]? = some w) (c : AxisDef) :
    windowFault c l k = none ↔ WindowSound c l k w := by
  obtain ⟨⟨w0, h0⟩, v, hv⟩ := first_and_previous hw
  have horder : ¬ (0 < k ∧ (readPosition c.kind w.on < readPosition c.kind v.off
        ∨ readPosition c.kind w.on ≤ readPosition c.kind v.on))
      ↔ ∀ v, 0 < k → l[k - 1]? = some v → readPosition c.kind v.off ≤ readPosition c.kind w.on
        ∧ readPosition c.kind v.on < readPosition c.kind w.on := by
    rw [not_and, not_or, not_lt, not_le]
    exact ⟨fun h x hk hx => Option.some.inj (hv.symm.trans hx) ▸ h hk, fun h hk => h v hk hv⟩
  rw [WindowSound, ← not_beyondTurn_iff, ← not_wrapMisplaced_iff c.kind l k w w0 h0, ← horder,
    windowFault_eq hw h0 hv]
  split_ifs with hempty hrange hwrap hbefore
  · exact iff_of_false nofun fun h => h.1 hempty
  · exact iff_of_false nofun fun h => h.2.1 hrange
  · exact iff_of_false nofun fun h => h.2.2.1 hwrap
  · exact iff_of_false nofun fun h => h.2.2.2 hbefore
  · exact iff_of_true rfl ⟨hempty, hrange, hwrap, hbefore⟩

/-- The condition found broken is the first in the order of R105. -/
theorem windowBreaks_of_windowFault {l : List Window} {k : Nat} {w : Window} (hw : l[k]? = some w) {c : AxisDef}
    {code : ErrorCode} (h : windowFault c l k = some code) : WindowBreaks c l k w code := by
  obtain ⟨⟨w0, h0⟩, v, hv⟩ := first_and_previous hw
  rw [windowFault_eq hw h0 hv] at h
  split_ifs at h with hempty hrange hwrap horder <;> obtain rfl := Option.some.inj h
  · exact .inl ⟨rfl, hempty⟩
  · exact .inr ⟨hempty, .inl ⟨rfl, hrange⟩⟩
  · obtain ⟨hlt, hplace⟩ := hwrap
    refine .inr ⟨hempty, .inr ⟨(not_beyondTurn_iff c w).mp hrange, .inl ⟨rfl, hlt, ?_⟩⟩⟩
    exact hplace.imp_right (Or.imp_right fun hfirst => ⟨w0, h0, hfirst⟩)
  · obtain ⟨hk, hprevious⟩ := horder
    exact .inr ⟨hempty, .inr ⟨(not_beyondTurn_iff c w).mp hrange, .inr ⟨rfl,
      (not_wrapMisplaced_iff c.kind l k w w0 h0).mp hwrap, hk, v, hv, hprevious⟩⟩⟩

/-- Each window of a list breaks no condition exactly when none is found (R105). -/
theorem windowsFault_eq_none_iff (c : AxisDef) (t : Fin 32) (l : List Window) :
    windowsFault c t l = none ↔ ∀ (k : Nat) (w : Window), l[k]? = some w → WindowSound c l k w := by
  rw [windowsFault, List.findSome?_eq_none_iff]
  simp only [List.mem_range, Option.map_eq_none_iff]
  constructor
  · intro h k w hw
    exact (windowFault_eq_none_iff hw c).mp (h k (List.getElem?_eq_some_iff.mp hw).1)
  · intro h k hk
    exact (windowFault_eq_none_iff (List.getElem?_eq_getElem hk) c).mpr (h k _ (List.getElem?_eq_getElem hk))

/-- The first window in list order that breaks a condition (R105). -/
theorem windowsFault_eq_some {c : AxisDef} {t : Fin 32} {l : List Window} {item : Item}
    (h : windowsFault c t l = some item) :
    item.subject = t.val ∧ ∃ w, l[item.detail]? = some w ∧ WindowBreaks c l item.detail w item.code
      ∧ ∀ j v, j < item.detail → l[j]? = some v → WindowSound c l j v := by
  obtain ⟨k, hk, hfound, hfirst⟩ := findSome?_range_eq_some h
  obtain ⟨code, hcode, rfl⟩ := Option.map_eq_some_iff.mp hfound
  have hw := List.getElem?_eq_getElem hk
  refine ⟨rfl, l[k], hw, windowBreaks_of_windowFault hw hcode, fun j v hj hv => ?_⟩
  exact (windowFault_eq_none_iff hv c).mp (Option.map_eq_none_iff.mp (hfirst j hj))

/-! ### The tracks (R104) -/

/-- An enabled track owns the same bit of the same slot id as `d` (R104). -/
def SharesBit (b : Bank) (d : TrackDef) (u : Fin 32) : Prop :=
  ∃ o, b.tracks[u] = some o ∧ o.enabled = true ∧ o.slot = d.slot ∧ o.bit = d.bit

theorem not_sharesBit_iff (b : Bank) (d : TrackDef) (u : Fin 32) :
    ¬ SharesBit b d u ↔ ∀ o, b.tracks[u] = some o → o.enabled = true → o.slot = d.slot → o.bit ≠ d.bit :=
  ⟨fun h o ho hon hslot hbit => h ⟨o, ho, hon, hslot, hbit⟩, fun h ⟨o, ho, hon, hslot, hbit⟩ => h o ho hon hslot hbit⟩

theorem sharesBit_iff (b : Bank) (d : TrackDef) (u : Fin 32) :
    SharesBit b d u ↔ ∃ o, b.enabledTrack u = some o ∧ o.slot = d.slot ∧ o.bit = d.bit := by
  simp only [SharesBit, enabledTrack_eq_some_iff, and_assoc]

/-- The track found is the lowest that owns the bit (R104). -/
theorem bitClash_eq_some_iff (b : Bank) (t : Fin 32) (d : TrackDef) (u : Fin 32) :
    b.bitClash t d = some u ↔ u < t ∧ SharesBit b d u ∧ ∀ v, v < u → ¬ SharesBit b d v := by
  rw [Bank.bitClash, find?_finRange_eq_some_iff (P := fun u => u < t ∧ SharesBit b d u)
    (fun u => by rw [sharesBit_iff]; cases b.enabledTrack u <;> simp), and_assoc]
  refine and_congr_right fun hu => and_congr_right fun _ => forall₂_congr fun v hv => ?_
  exact ⟨fun h hv' => h ⟨hv.trans hu, hv'⟩, fun h hv' => h hv'.2⟩

theorem bitClash_eq_none_iff (b : Bank) (t : Fin 32) (d : TrackDef) :
    b.bitClash t d = none ↔ ∀ u, u < t → ¬ SharesBit b d u := by
  rw [Bank.bitClash, find?_finRange_eq_none_iff (P := fun u => u < t ∧ SharesBit b d u)
    (fun u => by rw [sharesBit_iff]; cases b.enabledTrack u <;> simp)]
  simp only [not_and]

/-- What step 3 of the scan makes of an enabled track: its conditions in the order of R104, then its windows. -/
theorem trackFault_cases {b : Bank} {t : Fin 32} {d : TrackDef} (ht : b.enabledTrack t = some d) :
    (b.axes[d.axis] = none
        ∧ b.trackFault t = some { code := .trackAxisUndefined, subject := t.val, detail := d.axis.val })
      ∨ ∃ c, b.axes[d.axis] = some c
        ∧ ((∃ j, b.axisWithSource d.slot = some j
            ∧ b.trackFault t = some { code := .slotRoleClash, subject := t.val, detail := j.val })
          ∨ (b.axisWithSource d.slot = none
            ∧ ((b.statusSlot = some d.slot
                ∧ b.trackFault t = some { code := .slotRoleClash, subject := t.val, detail := 255 })
              ∨ (b.statusSlot ≠ some d.slot
                ∧ ((∃ u, b.bitClash t d = some u
                    ∧ b.trackFault t = some { code := .trackBitClash, subject := t.val, detail := u.val })
                  ∨ (b.bitClash t d = none ∧ b.trackFault t = windowsFault c t b.lists[t])))))) := by
  unfold Bank.trackFault
  cases haxis : b.axes[d.axis] with
  | none => exact .inl ⟨rfl, by simp only [ht, haxis]⟩
  | some c =>
    refine .inr ⟨c, rfl, ?_⟩
    cases hj : b.axisWithSource d.slot with
    | some j => exact .inl ⟨j, rfl, by simp only [ht, haxis, hj]⟩
    | none =>
      refine .inr ⟨rfl, ?_⟩
      by_cases hstatus : b.statusSlot = some d.slot
      · exact .inl ⟨hstatus, by simp only [ht, haxis, hj, hstatus, if_true]⟩
      · refine .inr ⟨hstatus, ?_⟩
        cases hu : b.bitClash t d with
        | some u => exact .inl ⟨u, rfl, by simp only [ht, haxis, hj, hstatus, hu, if_false]⟩
        | none => exact .inr ⟨rfl, by simp only [ht, haxis, hj, hstatus, hu, if_false]⟩

/-- A track that is absent or not enabled has no fault (R104). -/
theorem trackFault_of_not_enabled {b : Bank} {t : Fin 32} (ht : b.enabledTrack t = none) : b.trackFault t = none := by
  simp only [Bank.trackFault, ht]

/-- A track is sound when each test of the scan passes (R104, R105). -/
theorem trackSound_iff (b : Bank) (t : Fin 32) (d : TrackDef) :
    TrackSound b t d ↔ (∃ c, b.axes[d.axis] = some c ∧ windowsFault c t b.lists[t] = none)
      ∧ b.axisWithSource d.slot = none ∧ b.statusSlot ≠ some d.slot ∧ b.bitClash t d = none := by
  simp only [TrackSound, windowsFault_eq_none_iff, axisWithSource_eq_none_iff, bitClash_eq_none_iff, not_sharesBit_iff]
  refine and_congr_right fun _ => and_congr_right fun _ => and_congr_right fun _ => forall_congr' fun u => ?_
  exact forall_comm

theorem trackFault_eq_none_iff {b : Bank} {t : Fin 32} {d : TrackDef} (ht : b.enabledTrack t = some d) :
    b.trackFault t = none ↔ TrackSound b t d := by
  rw [trackSound_iff]
  rcases trackFault_cases ht with ⟨hc, h⟩ | ⟨c, hc, ⟨j, hj, h⟩ | ⟨hj, ⟨hs, h⟩ | ⟨hs, ⟨u, hu, h⟩ | ⟨hu, h⟩⟩⟩⟩
  all_goals rw [h, hc]
  · simp
  · simp [hj]
  · simp [hs]
  · simp [hu]
  · simp [hj, hs, hu]

/-- The condition found broken at a track is the first in the order of R104 and R105. -/
theorem trackBreaks_of_trackFault {b : Bank} {t : Fin 32} {d : TrackDef} (ht : b.enabledTrack t = some d) {item : Item}
    (hitem : b.trackFault t = some item) : item.subject = t.val ∧ TrackBreaks b t d item.code item.detail := by
  rcases trackFault_cases ht with ⟨hc, h⟩ | ⟨c, hc, ⟨j, hj, h⟩ | ⟨hj, ⟨hs, h⟩ | ⟨hs, ⟨u, hu, h⟩ | ⟨hu, h⟩⟩⟩⟩
  all_goals rw [hitem] at h
  · obtain rfl := Option.some.inj h
    exact ⟨rfl, .inl ⟨hc, rfl, rfl⟩⟩
  · obtain rfl := Option.some.inj h
    obtain ⟨hhas, hfirst⟩ := (axisWithSource_eq_some_iff _ _ _).mp hj
    exact ⟨rfl, .inr ⟨c, hc, .inl ⟨j, rfl, rfl, hhas, hfirst⟩⟩⟩
  all_goals
    rw [axisWithSource_eq_none_iff] at hj
  · obtain rfl := Option.some.inj h
    exact ⟨rfl, .inr ⟨c, hc, .inr ⟨hj, .inl ⟨rfl, rfl, hs⟩⟩⟩⟩
  · obtain rfl := Option.some.inj h
    obtain ⟨hlt, hshares, hfirst⟩ := (bitClash_eq_some_iff _ _ _ _).mp hu
    exact ⟨rfl, .inr ⟨c, hc, .inr ⟨hj, .inr ⟨hs, .inl ⟨u, rfl, rfl, hlt, hshares,
      fun v o hv => (not_sharesBit_iff b d v).mp (hfirst v hv) o⟩⟩⟩⟩⟩
  · obtain ⟨hsubject, hwindow⟩ := windowsFault_eq_some h.symm
    have hbits := (bitClash_eq_none_iff b t d).mp hu
    exact ⟨hsubject, .inr ⟨c, hc, .inr ⟨hj, .inr ⟨hs, .inr
      ⟨fun v o hv => (not_sharesBit_iff b d v).mp (hbits v hv) o, hwindow⟩⟩⟩⟩⟩

/-- Step 3 of the scan finds nothing at a track exactly when the track is sound, if it is enabled (R104). -/
theorem trackFault_eq_none_iff_sound (b : Bank) (t : Fin 32) :
    b.trackFault t = none ↔ ∀ d, b.tracks[t] = some d → d.enabled = true → TrackSound b t d := by
  cases ht : b.enabledTrack t with
  | none =>
    refine iff_of_true (trackFault_of_not_enabled ht) fun d hd hon => ?_
    rw [(enabledTrack_eq_some_iff b t d).mpr ⟨hd, hon⟩] at ht
    cases ht
  | some o =>
    have ⟨ho, hon⟩ := (enabledTrack_eq_some_iff b t o).mp ht
    rw [trackFault_eq_none_iff ht]
    exact ⟨fun h d hd _ => Option.some.inj (ho.symm.trans hd) ▸ h, fun h => h o ho hon⟩

/-! ### The scan (R102) -/

/-- What the scan finds: first at the axes, then at the status slot, then at the tracks (R102). -/
theorem validate_eq_or (b : Bank) :
    b.validate = ((List.finRange 16).findSome? b.axisFault).or
      (b.statusFault.or ((List.finRange 32).findSome? b.trackFault)) := by
  unfold Bank.validate
  cases (List.finRange 16).findSome? b.axisFault with
  | some item => rfl
  | none => cases b.statusFault <;> rfl

theorem validate_eq_none_iff (b : Bank) : b.validate = none ↔ AxesSound b ∧ StatusSound b
    ∧ ∀ (t : Fin 32) (d : TrackDef), b.tracks[t] = some d → d.enabled = true → TrackSound b t d := by
  rw [validate_eq_or, Option.or_eq_none_iff, Option.or_eq_none_iff, findSome?_finRange_eq_none_iff,
    findSome?_finRange_eq_none_iff, axisFaults_eq_none_iff, statusFault_eq_none_iff]
  simp only [trackFault_eq_none_iff_sound]

/-- Settles O36: the scan stops at its first find, and each step finds the first condition broken. -/
theorem validationReportsTheFirstViolation : Obligations.ValidationReportsTheFirstViolation := by
  refine ⟨validate_eq_none_iff, fun b item h => ?_⟩
  rw [validate_eq_or, Option.or_eq_some_iff, Option.or_eq_some_iff, findSome?_finRange_eq_none_iff,
    axisFaults_eq_none_iff, statusFault_eq_none_iff, findSome?_finRange_eq_some_iff,
    findSome?_finRange_eq_some_iff] at h
  rcases h with ⟨i, hi, hfirst⟩ | ⟨haxes, hstatus | ⟨hstatus, t, ht, hfirst⟩⟩
  · obtain ⟨c, j, hc, hj, hlt, rfl⟩ := (axisFault_eq_some_iff b i item).mp hi
    obtain ⟨⟨d, hd, hs⟩, hlowest⟩ := (axisWithSource_eq_some_iff _ _ _).mp hj
    refine .inl ⟨i, j, rfl, hlt, ⟨c, d, hc, hd, hs.symm⟩, fun k l c d hl hk hck hdl => ?_, fun l c' d hl hc' hdl => ?_⟩
    · exact ((axisFault_eq_none_iff b k).mp (hfirst k hk) c hck l d hl hdl).symm
    · obtain rfl := Option.some.inj (hc.symm.trans hc')
      exact (hlowest l d hl hdl).symm
  · obtain ⟨id, j, hid, hj, rfl⟩ := (statusFault_eq_some_iff b item).mp hstatus
    obtain ⟨hhas, hlowest⟩ := (axisWithSource_eq_some_iff _ _ _).mp hj
    exact .inr (.inl ⟨id, j, rfl, hid, hhas, hlowest, haxes⟩)
  · obtain ⟨d, hd⟩ : ∃ d, b.enabledTrack t = some d := by
      refine Option.ne_none_iff_exists'.mp fun hnone => ?_
      cases (trackFault_of_not_enabled hnone).symm.trans ht
    obtain ⟨hsubject, hbreaks⟩ := trackBreaks_of_trackFault hd ht
    have ⟨htrack, hon⟩ := (enabledTrack_eq_some_iff b t d).mp hd
    exact .inr (.inr ⟨t, d, hsubject, htrack, hon, hbreaks,
      fun u o hu => (trackFault_eq_none_iff_sound b u).mp (hfirst u hu) o, haxes, hstatus⟩)

end Sys2Proof.Proofs

/-!
PROOFS. The retry table: what a completion caches, and the commands that the CP answers from it, drops or discards.
-/
namespace Sys2Proof.Proofs

open Sys2Proof.Machine Sys2Proof.Claims

/-! ### The retry table at completion (R133; log entry 15) -/

/-- No later acceptance has set the entry of a command's source again: the unicast commands of that source behind it
have tag 0 (R132, R133). -/
theorem setAgain_eq_false_iff (e : CommandEntry) (behind : List CommandEntry) :
    setAgain e behind = false
      ↔ ∀ o, o ∈ behind → o.origin = .unicast → o.source = e.source → o.tagValue = 0#16 := by
  simp [setAgain]

/-- A completion makes an entry DONE: it is IN_PROGRESS with the command's source and tag, the tag is not 0, and no
command behind has set the entry again (R133; log entry 15). -/
abbrev MakesDone (e : CommandEntry) (behind : List CommandEntry) (r : RetryEntry) : Prop :=
  (e.tagValue ≠ 0#16 ∧ r.source = e.source ∧ r.tag = e.tagValue ∧ r.cached = none) ∧ setAgain e behind = false

/-- What a completion makes of one entry of the retry table (R133). -/
def entryAfter (e : CommandEntry) (behind : List CommandEntry) (reply : Frame) (r : RetryEntry) : RetryEntry :=
  if MakesDone e behind r then { r with cached := some reply } else r

/-- A completion takes the retry table entry by entry. -/
theorem cacheReply_eq_map (table : List RetryEntry) (e : CommandEntry) (behind : List CommandEntry) (reply : Frame) :
    cacheReply table e behind reply = table.map (entryAfter e behind reply) := by
  unfold cacheReply
  split
  · next hnone =>
    have same (r : RetryEntry) : entryAfter e behind reply r = r :=
      if_neg fun ⟨⟨htag, _⟩, hset⟩ => by simp [htag, hset] at hnone
    rw [funext same, List.map_id']
  · next hsome =>
    obtain ⟨htag, hset⟩ : e.tagValue ≠ 0#16 ∧ setAgain e behind = false := by simpa using hsome
    refine List.map_congr_left fun r _ => ?_
    simp only [entryAfter, MakesDone, hset, htag, ne_eq, not_false_eq_true, true_and, and_true]

/-- Settles O19: entry by entry, and an entry is set again exactly by a tagged unicast command of its source behind. -/
theorem completionCachesReply : Obligations.CompletionCachesReply := by
  intro table e behind reply
  refine ⟨cacheReply_length table e behind reply, fun k r hr => ?_⟩
  rw [cacheReply_eq_map, List.getElem?_map, hr, Option.map_some, entryAfter]
  simp only [MakesDone, setAgain_eq_false_iff, CommandEntry.tagValue]

/-! ### Duplicates and discards (R126 to R129) -/

/-- The first entry of its source makes an offered command a duplicate when it has the command's tag (R126 test 1). -/
theorem duplicateOf_at {before after : List RetryEntry} {r : RetryEntry} {e : CommandEntry}
    (htag : e.tagValue ≠ 0#16) (hs : r.source = e.source) (ht : r.tag = e.tagValue)
    (hb : ∀ x, x ∈ before → x.source ≠ e.source) : duplicateOf (before ++ r :: after) e = some r := by
  rw [duplicateOf, if_neg htag, List.find?_eq_some_iff_append]
  refine ⟨by simp [hs, ht], before, after, rfl, fun x hx => ?_⟩
  simp [hb x hx]

/-- A duplicate is taken by its retry entry (R127). -/
theorem offerUnicast_duplicate {s : State} {e : CommandEntry} {r : RetryEntry}
    (hd : duplicateOf s.cp.retry e = some r) : s.offerUnicast e = s.takeDuplicate r := by
  rw [State.offerUnicast, hd]

/-- A duplicate of a command IN_PROGRESS is dropped (R127). -/
theorem takeDuplicate_inProgress {s : State} {r : RetryEntry} (hr : r.cached = none) :
    s.takeDuplicate r = s.send [[.count .duplicatesDropped]] := by
  rw [State.takeDuplicate, hr]

/-- A duplicate of a DONE entry is answered with the cached reply when the IQ has a place (R127). -/
theorem takeDuplicate_answered {s : State} {r : RetryEntry} {reply : Frame} (hr : r.cached = some reply)
    (hp : s.iq.places < 6) :
    s.takeDuplicate r = State.send { s with iq := s.iq.joinCopy reply } [[.count .duplicatesAnswered]] := by
  have hplaces : s.iq.places < Config.replyPlaces := hp
  simp only [State.takeDuplicate, hr, if_pos hplaces]

/-- A duplicate of a DONE entry is dropped when the IQ has no place (R127). -/
theorem takeDuplicate_dropped {s : State} {r : RetryEntry} {reply : Frame} (hr : r.cached = some reply)
    (hp : 6 ≤ s.iq.places) : s.takeDuplicate r = s.send [[.count .duplicatesDropped]] := by
  have hplaces : ¬ s.iq.places < Config.replyPlaces := Nat.not_lt.mpr hp
  simp only [State.takeDuplicate, hr, if_neg hplaces]

/-- An offered command that is no duplicate and lacks a queue place or a reply place is discarded (R128). -/
theorem offerUnicast_discarded {s : State} {e : CommandEntry} (hd : duplicateOf s.cp.retry e = none)
    (hfull : 4 ≤ s.cp.queue.length ∨ 6 ≤ s.iq.places) : s.offerUnicast e = s.discardOffer e.source e.codeValue := by
  simp only [State.offerUnicast, hd]
  split_ifs with hqueue hplaces
  · rfl
  · rfl
  · exact absurd hfull (not_or.mpr ⟨hqueue, hplaces⟩)

/-- A unicast command to the part is taken off the ring once its reception has ended (R26, R129). -/
theorem exec_receiveCommand_takeUnicast {s : State} {f : Frame} {valid : Bool} (ha : Arrives s f)
    (hc : classify f = .command valid) (ht : ToPart s f) :
    exec (.receiveCommand f) s = .next (s.endReception.takeUnicast f valid) := by
  obtain ⟨hlen, hdest, haddr⟩ := ht
  have hhere : s.unicastHere f = true := by simp [State.unicastHere, hlen, hdest, haddr]
  show execReceiveCommand f s = _
  rw [execReceiveCommand, if_pos (receives_of_arrives ha), hc]
  exact if_pos hhere

/-- Settles O17: a duplicate by what its retry entry caches, a discard by the length of the frame or the place that
lacks. -/
theorem duplicatesAndDiscardsAreCounted : Obligations.DuplicatesAndDiscardsAreCounted := by
  refine ⟨fun s f valid e before after r ha hc ht hl he htag htable hs htr hb => ?_,
    fun s f valid e ha hc ht he => ⟨fun hl => ?_, fun hl hnew hfull => ?_⟩⟩
  · have taken : exec (.receiveCommand f) s = .next (s.endReception.takeDuplicate r) := by
      have hd : duplicateOf s.endReception.cp.retry e = some r := by
        rw [endReception_cp, htable, duplicateOf_at htag hs htr hb]
      rw [exec_receiveCommand_toPart ha hc ht hl, ← he, offerUnicast_duplicate hd]
    rw [taken]
    exact ⟨fun hr => congrArg _ (takeDuplicate_inProgress hr),
      fun _ hr hp => congrArg _ (takeDuplicate_answered (s := s.endReception) hr hp),
      fun _ hr hp => congrArg _ (takeDuplicate_dropped (s := s.endReception) hr hp)⟩
  · rw [exec_receiveCommand_takeUnicast ha hc ht, State.takeUnicast, if_pos hl]
    rfl
  · rw [exec_receiveCommand_toPart ha hc ht hl, ← he,
      offerUnicast_discarded (s := s.endReception) (duplicateOf_eq_none hnew) hfull, he]
    rfl

end Sys2Proof.Proofs

/-!
PROOFS. Every step keeps the sources of the retry table distinct and its IN_PROGRESS entries owned by queued commands.
-/
namespace Sys2Proof.Proofs

open Sys2Proof.Machine Sys2Proof.Claims

/-! ### The command that owns an entry IN_PROGRESS (R131, R132) -/

/-- A command that sets the retry entry of a source when it is accepted (R132). -/
def SetsEntryOf (o : CommandEntry) (source : Byte) : Prop :=
  o.origin = .unicast ∧ o.source = source ∧ o.tagValue ≠ 0#16

theorem setAgain_append_singleton {e o : CommandEntry} {behind : List CommandEntry} (h : setAgain e behind = false)
    (ho : ¬ SetsEntryOf o e.source) : setAgain e (behind ++ [o]) = false := by
  rw [setAgain, List.any_append, ← setAgain, h]
  simpa [SetsEntryOf] using ho

/-- An entry stays owned when a command joins the queue that does not set it (R126, R130). -/
theorem owned_append {queue : List CommandEntry} {r : RetryEntry} {o : CommandEntry} (h : Safety.Owned queue r)
    (ho : ¬ SetsEntryOf o r.source) : Safety.Owned (queue ++ [o]) r := by
  obtain ⟨before, e, behind, rfl, horigin, hsource, htag, hset⟩ := h
  refine ⟨before, e, behind ++ [o], by simp, horigin, hsource, htag, ?_⟩
  exact setAgain_append_singleton hset (by rwa [hsource])

/-- The entry of a unicast command just accepted is owned by it (R132). -/
theorem owned_newEntry (queue : List CommandEntry) {e : CommandEntry} (he : e.origin = .unicast) :
    Safety.Owned (queue ++ [e]) (newEntry e.source e.tagValue) :=
  ⟨queue, e, [], rfl, he, rfl, rfl, rfl⟩

/-- An owned entry belongs to the command at the head or to one behind it. -/
theorem owned_cons {e : CommandEntry} {rest : List CommandEntry} {r : RetryEntry} (h : Safety.Owned (e :: rest) r) :
    (e.origin = .unicast ∧ e.source = r.source ∧ e.tagValue = r.tag ∧ setAgain e rest = false)
      ∨ Safety.Owned rest r := by
  obtain ⟨before, e', behind, hqueue, howner⟩ := h
  cases before with
  | nil =>
    obtain ⟨rfl, rfl⟩ := List.cons.inj hqueue
    exact .inl howner
  | cons _ before => exact .inr ⟨before, e', behind, (List.cons.inj hqueue).2, howner⟩

/-! ### The operations on the queue and the retry table -/

/-- The law depends on the command queue and the retry table alone. -/
theorem retries_of_same {s t : State} (h : Safety.Retries s) (hq : t.cp.queue = s.cp.queue)
    (hr : t.cp.retry = s.cp.retry) : Safety.Retries t := by
  unfold Safety.Retries
  rw [hq, hr]
  exact h

theorem retries_of_cp {s t : State} (h : Safety.Retries s) (hc : t.cp = s.cp) : Safety.Retries t :=
  retries_of_same h (by rw [hc]) (by rw [hc])

theorem retries_of_empty {s : State} (h : s.cp.retry = []) : Safety.Retries s := by simp [Safety.Retries, h]

theorem retries_send {s : State} (l : List (List Notice)) (h : Safety.Retries s) : Safety.Retries (s.send l) :=
  retries_of_cp h (send_cp s l)

/-- A command joins the queue, and the table keeps entries that it does not set (R130, R132). -/
theorem retries_join {s t : State} {o : CommandEntry} (h : Safety.Retries s) (hq : t.cp.queue = s.cp.queue ++ [o])
    (hsub : t.cp.retry.Sublist s.cp.retry) (ho : ∀ r, r ∈ t.cp.retry → ¬ SetsEntryOf o r.source) :
    Safety.Retries t := by
  obtain ⟨hnodup, hentries⟩ := h
  refine ⟨hnodup.sublist (hsub.map _), fun r hr => ?_⟩
  obtain ⟨htag, howned⟩ := hentries r (hsub.subset hr)
  exact ⟨htag, fun hc => hq ▸ owned_append (howned hc) (ho r hr)⟩

/-- All that an acceptance makes of the retry table (R132): entries of other sources stay, and the source's new entry is
the most recent one; a full table without a DONE entry stays as it is (log entry 16). -/
theorem acceptTag_cases (table : List RetryEntry) (source : Byte) (tag : Half) :
    ∃ kept, kept.Sublist table ∧ (∀ r, r ∈ kept → r.source ≠ source)
      ∧ (acceptTag table source tag = kept ++ [newEntry source tag] ∨ acceptTag table source tag = kept) := by
  unfold acceptTag
  simp only
  split_ifs with hsource hroom
  · exact ⟨_, List.filter_sublist, fun r hr => by simpa using (List.mem_filter.mp hr).2, .inl rfl⟩
  all_goals have hother : ∀ r, r ∈ table → r.source ≠ source := by simpa using hsource
  · exact ⟨table, .refl _, hother, .inl rfl⟩
  · split
    · next kept hkept =>
      have hsub := dropOldestDone_sublist table kept hkept
      exact ⟨kept, hsub, fun r hr => hother r (hsub.subset hr), .inl rfl⟩
    · exact ⟨table, .refl _, hother, .inr rfl⟩

/-- The entry of a tagged unicast command just accepted joins a table without an entry of its source (R132). -/
theorem retries_newEntry {s t : State} {queue : List CommandEntry} {e : CommandEntry} (h : Safety.Retries s)
    (he : e.origin = .unicast) (htag : e.tagValue ≠ 0#16) (hs : s.cp.queue = queue ++ [e])
    (hother : ∀ r, r ∈ s.cp.retry → r.source ≠ e.source) (hq : t.cp.queue = s.cp.queue)
    (hr : t.cp.retry = s.cp.retry ++ [newEntry e.source e.tagValue]) : Safety.Retries t := by
  obtain ⟨hnodup, hentries⟩ := h
  unfold Safety.Retries
  rw [hq, hr]
  refine ⟨?_, fun r hmem => ?_⟩
  · rw [List.map_append, List.nodup_append]
    refine ⟨hnodup, List.nodup_singleton _, fun a ha b hb => ?_⟩
    obtain ⟨r, hr, rfl⟩ := List.mem_map.mp ha
    rw [List.mem_singleton.mp hb]
    exact hother r hr
  · rcases List.mem_append.mp hmem with hmem | hmem
    · exact hentries r hmem
    · rw [List.mem_singleton.mp hmem, hs]
      exact ⟨htag, fun _ => owned_newEntry queue he⟩

/-- A unicast command is accepted (R126, R132). -/
theorem retries_acceptUnicast {s : State} {e : CommandEntry} (h : Safety.Retries s) (he : e.origin = .unicast) :
    Safety.Retries (s.acceptUnicast e) := by
  refine retries_send _ ?_
  by_cases htag : e.tagValue = 0#16
  · rw [if_pos htag]
    exact retries_join h rfl (.refl _) (fun _ _ ho => ho.2.2 htag)
  · rw [if_neg htag]
    obtain ⟨kept, hsub, hother, htable⟩ := acceptTag_cases s.cp.retry e.source e.tagValue
    have joined : Safety.Retries { s with cp := { s.cp with queue := s.cp.queue ++ [e], retry := kept } } :=
      retries_join h rfl hsub (fun r hr ho => hother r hr ho.2.1.symm)
    rcases htable with htable | htable <;> rw [htable]
    · exact retries_newEntry joined he htag rfl hother rfl rfl
    · exact joined

theorem source_entryAfter (e : CommandEntry) (behind : List CommandEntry) (reply : Frame) (r : RetryEntry) :
    (entryAfter e behind reply r).source = r.source := by
  unfold entryAfter
  split <;> rfl

theorem tag_entryAfter (e : CommandEntry) (behind : List CommandEntry) (reply : Frame) (r : RetryEntry) :
    (entryAfter e behind reply r).tag = r.tag := by
  unfold entryAfter
  split <;> rfl

/-- An entry that is IN_PROGRESS behind a completion was so before, and is not the completed command's (R133). -/
theorem inProgress_entryAfter {e : CommandEntry} {behind : List CommandEntry} {reply : Frame} {r : RetryEntry}
    (h : (entryAfter e behind reply r).cached = none) :
    entryAfter e behind reply r = r ∧ ¬ MakesDone e behind r := by
  unfold entryAfter at h ⊢
  split_ifs at h ⊢ with hdone
  exact ⟨rfl, hdone⟩

/-- The command at the head completes: the entry it owns becomes DONE, the others stay with their owners (R133). -/
theorem retries_complete {s : State} (status : Status) (words : List Word) (h : Safety.Retries s) :
    Safety.Retries (s.complete status words) := by
  cases hq : s.cp.queue with
  | nil => rwa [State.complete, hq]
  | cons e rest =>
    obtain ⟨hnodup, hentries⟩ := h
    rw [hq] at hentries
    rw [complete_eq s e rest hq]
    cases horigin : e.origin with
    | broadcast =>
      refine ⟨hnodup, fun r hr => ⟨(hentries r hr).1, fun hc => ?_⟩⟩
      exact (owned_cons ((hentries r hr).2 hc)).resolve_left (fun howner => by simp [horigin] at howner)
    | unicast =>
      simp only [Safety.Retries, cacheReply_eq_map]
      refine ⟨?_, fun r hr => ?_⟩
      · rwa [List.map_map, show RetryEntry.source ∘ _ = RetryEntry.source from
          funext (source_entryAfter e rest _)]
      · obtain ⟨r', hr', rfl⟩ := List.mem_map.mp hr
        obtain ⟨htag, howned⟩ := hentries r' hr'
        refine ⟨by rwa [tag_entryAfter], fun hc => ?_⟩
        obtain ⟨hsame, hnot⟩ := inProgress_entryAfter hc
        rw [hsame] at hc ⊢
        refine (owned_cons (howned hc)).resolve_left fun ⟨_, hsource, htags, hset⟩ => ?_
        exact hnot ⟨⟨htags ▸ htag, hsource.symm, htags.symm, hc⟩, hset⟩

/-! ### The intake (R126, R130) -/

theorem retries_takeDuplicate {s : State} (r : RetryEntry) (h : Safety.Retries s) :
    Safety.Retries (s.takeDuplicate r) := by
  unfold State.takeDuplicate
  split
  · exact retries_send _ h
  · split <;> exact retries_send _ h

/-- An offered unicast command is a duplicate, discarded, or accepted (R126). -/
theorem retries_offerUnicast {s : State} {e : CommandEntry} (h : Safety.Retries s) (he : e.origin = .unicast) :
    Safety.Retries (s.offerUnicast e) := by
  unfold State.offerUnicast
  split
  · exact retries_takeDuplicate _ h
  · split_ifs
    · exact retries_send _ h
    · exact retries_send _ h
    · exact retries_acceptUnicast h he

/-- An offered broadcast sets no entry (R130). -/
theorem retries_offerBroadcast {s : State} {e : CommandEntry} (h : Safety.Retries s) (he : e.origin = .broadcast) :
    Safety.Retries (s.offerBroadcast e) := by
  unfold State.offerBroadcast
  split_ifs
  · exact retries_send _ h
  · exact retries_send _ h
  · exact retries_send _ (retries_join h rfl (.refl _) (fun _ _ ho => by simp [SetsEntryOf, he] at ho))

/-- A frame whose reception ends is dropped, or takes its routes (R30). -/
theorem retries_ifRoom {s : State} (f : Frame) {routes : State → State} (h : Safety.Retries s)
    (hroutes : Safety.Retries s.endReception → Safety.Retries (routes s.endReception)) :
    Safety.Retries (s.endReception.ifRoom f routes) := by
  rcases ifRoom_cases s.endReception f routes with ⟨-, hs⟩ | ⟨-, hs⟩ <;> rw [hs]
  · exact retries_send _ h
  · exact hroutes h

theorem retries_receiveCommand {s t : State} {f : Frame} (h : Safety.Retries s)
    (ht : execReceiveCommand f s = .next t) : Safety.Retries t := by
  rcases execReceiveCommand_cases ht with rfl | ⟨-, valid, -, ⟨-, rfl⟩ | ⟨-, -, -, rfl⟩ | ⟨-, -, rfl⟩⟩
  · exact h
  · unfold State.takeUnicast
    split
    · exact retries_send _ h
    · exact retries_offerUnicast h rfl
  · exact retries_ifRoom f h (fun h => retries_offerBroadcast h rfl)
  · exact retries_ifRoom f h id

/-! ### The rows that leave the CP alone -/

/-- The rows of the ring and of the SE but RECEIVE_COMMAND, and the release of the pin: no command is offered, begins or
ends. -/
def leavesCp (c : Instr) : Bool :=
  match c with
  | .resetPinReleased | .lineAcquired _ | .lineLost _ | .rxAbort _ | .receiveSample _ | .receiveDamaged _
  | .receiveReply _ | .receiveEnumerate _ | .receiveForeign _ | .sampleEvaluation | .lostSample | .sendForwardBegin
  | .sendReplyBegin | .frameForwarded | .replySent | .outDiscard | .replyExpired _ => true
  | _ => false

@[simp] theorem routeSample_cp (s : State) (f : Frame) : (s.routeSample f).cp = s.cp := by
  unfold State.routeSample
  split <;> rfl

@[simp] theorem routeLost_cp (s : State) (f : Frame) : (s.routeLost f).cp = s.cp := by
  rw [State.routeLost, announceLost_eq]
  rfl

@[simp] theorem routeEnumerate_cp (s : State) (f : Frame) : (s.routeEnumerate f).cp = s.cp := by
  unfold State.routeEnumerate
  split <;> rfl

@[simp] theorem takeLost_cp (s : State) : s.takeLost.cp = s.cp := by simp [State.takeLost]

/-- The test of R30 leaves the CP alone when the frame's routes do. -/
theorem ifRoom_cp {s : State} (f : Frame) {routes : State → State} (h : (routes s).cp = s.cp) :
    (s.ifRoom f routes).cp = s.cp := by
  rcases ifRoom_cases s f routes with ⟨-, hs⟩ | ⟨-, hs⟩ <;> rw [hs]
  · exact send_cp _ _
  · exact h

theorem exec_cp {c : Instr} {s t : State} (hc : leavesCp c = true) (ht : exec c s = .next t) : t.cp = s.cp := by
  cases c <;> cases hc
  case resetPinReleased => cases ht; rfl
  case lineAcquired => rcases execLineAcquired_cases ht with rfl | ⟨-, -, rfl | rfl⟩ <;> simp
  case lineLost => rcases execLineLost_cases ht with rfl | ⟨-, rfl⟩ <;> simp
  case rxAbort => rcases execRxAbort_cases ht with rfl | ⟨-, _, rfl⟩ <;> simp
  case receiveSample f =>
    rcases execReceiveSample_cases ht with rfl | ⟨-, ⟨-, rfl⟩ | ⟨-, rfl⟩⟩
    · rfl
    · exact ifRoom_cp f (by simp)
    · exact ifRoom_cp f (by simp)
  case receiveDamaged f =>
    rcases execReceiveDamaged_cases ht with rfl | ⟨-, -, rfl⟩
    · rfl
    · refine ifRoom_cp f ?_
      split <;> simp
  case receiveReply f =>
    rcases execReceiveReply_cases ht with rfl | ⟨-, rfl | rfl⟩
    · rfl
    · simp
    · exact ifRoom_cp f rfl
  case receiveEnumerate f =>
    rcases execReceiveEnumerate_cases ht with rfl | ⟨-, -, rfl⟩
    · rfl
    · exact ifRoom_cp f (by simp)
  case receiveForeign f =>
    rcases execReceiveForeign_cases ht with rfl | ⟨-, ⟨-, rfl⟩ | ⟨-, rfl⟩⟩
    · rfl
    · exact ifRoom_cp f (by simp)
    · exact ifRoom_cp f rfl
  case sampleEvaluation =>
    rcases execSampleEvaluation_cases ht with rfl | ⟨-, f, _, -, -, rfl⟩
    · rfl
    · obtain ⟨_, _, _, _, hs⟩ := evaluate_eq s f
      rw [hs]
  case lostSample => rcases execLostSample_cases ht with rfl | ⟨-, _, -, rfl⟩ <;> simp
  case sendForwardBegin => rcases execSendForwardBegin_cases ht with rfl | ⟨-, -, -, rfl⟩ <;> rfl
  case sendReplyBegin => rcases execSendReplyBegin_cases ht with rfl | ⟨-, _, _, -, rfl⟩ <;> rfl
  case frameForwarded => rcases execFrameForwarded_cases ht with rfl | ⟨-, -, rfl⟩ <;> simp
  case replySent => rcases execReplySent_cases ht with rfl | ⟨-, rfl⟩ <;> simp
  case outDiscard => rcases execOutDiscard_cases ht with rfl | ⟨-, -, -, rfl⟩ <;> simp
  case replyExpired => rcases execReplyExpired_cases ht with rfl | ⟨-, _, _, -, rfl⟩ <;> simp

/-! ### The rows of the commands (R134 to R136) -/

/-- Beginning a command keeps the law when the command's own tests and effect do. -/
theorem retries_beginsIf {s : State} (admits : CommandEntry → Bool) (own : CommandEntry → State)
    (h : Safety.Retries s) (hown : ∀ e, Safety.Retries (own e)) : Safety.Retries (s.beginsIf admits own) := by
  rcases beginsIf_cases s admits own with hs | ⟨e, rest, -, -, -, -, ⟨status, words, -, hs⟩ | ⟨-, hs⟩⟩ <;> rw [hs]
  · exact h
  · exact retries_complete _ _ h
  · exact hown e

/-- A command that changes nothing of the CP before it completes. -/
theorem retries_answer {s u : State} (status : Status) (words : List Word) (h : Safety.Retries s) (hc : u.cp = s.cp) :
    Safety.Retries (u.complete status words) :=
  retries_complete _ _ (retries_of_cp h hc)

/-- Beginning a command that only answers, once something outside the CP has changed. -/
theorem retries_begins_answer {s : State} (admits : CommandEntry → Bool) {u : CommandEntry → State}
    {status : Status} {words : CommandEntry → List Word} (h : Safety.Retries s) (hc : ∀ e, (u e).cp = s.cp) :
    Safety.Retries (s.beginsIf admits (fun e => (u e).complete status (words e))) :=
  retries_beginsIf _ _ h (fun e => retries_answer _ _ h (hc e))

theorem retries_edit {s : State} (change : Bank → Bank) (words : Bank → List Word) (h : Safety.Retries s) :
    Safety.Retries (s.edit change words) := by
  rcases edit_cases s change words with ⟨-, hs⟩ | ⟨-, hs⟩ <;> rw [hs] <;> exact retries_answer _ _ h rfl

theorem retries_loadWindows {s : State} (e : CommandEntry) (h : Safety.Retries s) :
    Safety.Retries (s.loadWindows e) := by
  unfold State.loadWindows
  simp only
  split_ifs
  case neg => exact retries_edit _ _ h
  all_goals exact retries_complete _ _ h

theorem retries_startStaged {s : State} (op : StagedOp) (x : Flight) (h : Safety.Retries s) :
    Safety.Retries (s.startStaged op x) := by
  unfold State.startStaged
  split
  · exact retries_complete _ _ h
  · exact h

theorem retries_startCommit {s : State} (o : CommitOrder) (h : Safety.Retries s) :
    Safety.Retries (s.startCommit o) := by
  unfold State.startCommit
  split_ifs
  · exact retries_complete _ _ h
  · exact retries_complete _ _ h
  · exact retries_answer _ _ h (reportTooLate_cp s o)
  · exact h

theorem retries_finishValidation {s : State} (o : CommitOrder) (h : Safety.Retries s) :
    Safety.Retries (s.finishValidation o) := by
  unfold State.finishValidation
  split
  · exact retries_answer _ _ h (by simp)
  · split <;> exact retries_answer _ _ h (by simp)

theorem retries_dropCommit {s : State} (h : Safety.Retries s) : Safety.Retries s.dropCommit := by
  unfold State.dropCommit
  split <;> exact h

theorem retries_replyDropped {s : State} (h : Safety.Retries s) : Safety.Retries s.replyDropped := by
  unfold State.replyDropped
  split
  · exact retries_complete _ _ h
  · exact h

theorem retries_resumeStep {s : State} (g : ResumeStep) (h : Safety.Retries s) : Safety.Retries (s.resumeStep g) := by
  cases g with
  | records | mode => exact h
  | reply => exact retries_complete _ _ h

theorem retries_resetStep {s : State} (level : ResetLevel) (g : ResetStep) (h : Safety.Retries s) :
    Safety.Retries (s.resetStep level g) := by
  cases g with
  | se => exact h
  | iq => cases level <;> exact h
  | rpu | mu =>
    cases level with
    | tables => exact h
    | all => exact retries_of_same h (by simp [State.resetStep]) (by simp [State.resetStep])
  | reply => exact retries_complete _ _ h

/-! ### Every row -/

/-- The rows by which a command is offered, begins, goes on or ends, and the reset pin held low. -/
theorem retries_exec_of_not_leavesCp {c : Instr} {s t : State} (hc : leavesCp c = false) (h : Safety.Retries s)
    (ht : exec c s = .next t) : Safety.Retries t := by
  cases c <;> cases hc
  case resetPinAsserted => cases ht; exact retries_of_empty rfl
  case receiveCommand => exact retries_receiveCommand h ht
  case identify | readAxis | readTrack | readPool | setAttentionMask | setReplyLifetime =>
    cases ht
    exact retries_begins_answer _ h (fun _ => rfl)
  case readStatus | readFault | clearFault | ackAttention =>
    cases ht
    exact retries_begins_answer _ h (fun _ => by simp)
  case readWindows =>
    cases ht
    refine retries_beginsIf _ _ h (fun _ => ?_)
    simp only
    split <;> exact retries_complete _ _ h
  case cancelCommit | readCounters =>
    cases ht
    refine retries_beginsIf _ _ h (fun _ => ?_)
    split <;> exact retries_answer _ _ h (by simp)
  case defineAxis | clearAxis | defineTrack | clearTrack | defineStatusSlot =>
    cases ht
    exact retries_beginsIf _ _ h (fun _ => retries_edit _ _ h)
  case loadWindows => cases ht; exact retries_beginsIf _ _ h (fun e => retries_loadWindows e h)
  case stageCopy | stageClear => cases ht; exact retries_beginsIf _ _ h (fun _ => retries_startStaged _ _ h)
  case commit => cases ht; exact retries_beginsIf _ _ h (fun _ => retries_startCommit _ h)
  case bypass | resume =>
    cases ht
    refine retries_beginsIf _ _ h (fun _ => ?_)
    split
    · exact h
    · exact retries_complete _ _ h
  case releaseAddress =>
    have hreply : Safety.Retries s.nextPause.replyReleasing := retries_complete (s := s.nextPause) .ok [] h
    rcases execReleaseAddress_cases ht with ⟨-, -, rfl⟩ | rfl
    · exact h
    · refine retries_beginsIf _ _ h (fun _ => ?_)
      split <;> exact hreply
  case resetTables | unknownCommand => cases ht; exact retries_beginsIf _ _ h (fun _ => h)
  case resetAll => cases ht; exact retries_beginsIf _ _ h (fun _ => retries_of_empty rfl)
  case validationComplete =>
    rcases execValidationComplete_cases ht with rfl | ⟨-, -, o, -, rfl⟩
    · exact h
    · exact retries_finishValidation o h
  case copyComplete =>
    rcases execCopyComplete_cases ht with rfl | ⟨-, -, rfl⟩
    · exact h
    · exact retries_answer _ _ h rfl
  case clearComplete =>
    rcases execClearComplete_cases ht with rfl | ⟨-, -, rfl⟩
    · exact h
    · exact retries_answer _ _ h rfl
  case commitDrop =>
    rcases execCommitDrop_cases ht with rfl | ⟨-, ⟨-, rfl | rfl⟩ | ⟨-, rfl⟩⟩
    · exact h
    · exact retries_dropCommit (s := s.nextPause) h
    · exact retries_replyDropped (retries_dropCommit (s := s.nextPause) h)
    · exact retries_replyDropped h
  case dynamicRecordClear =>
    rcases execDynamicRecordClear_cases ht with rfl | ⟨-, next, -, rfl⟩
    · exact h
    · exact List.foldlRecOn _ _ h (fun _ hu g _ => retries_resumeStep g hu)
  case seTableReset =>
    rcases execSeTableReset_cases ht with rfl | ⟨-, level, next, -, rfl⟩
    · exact h
    · exact List.foldlRecOn _ _ h (fun _ hu g _ => retries_resetStep level g hu)

theorem retries_exec {c : Instr} {s t : State} (h : Safety.Retries s) (ht : exec c s = .next t) :
    Safety.Retries t := by
  cases hleaves : leavesCp c with
  | true => exact retries_of_cp h (exec_cp hleaves ht)
  | false => exact retries_exec_of_not_leavesCp hleaves h ht

theorem idle_cp (s : State) : s.idle.cp = s.cp := by
  rw [State.idle, ← deliver_cp s]
  rcases pass_cases s.deliver with ⟨_, _, _, h⟩ | h <;> rw [h]

/-- Settles O58: commands join the queue with the retry entry they set, and leave it at completion, which makes the
entry they own DONE. -/
theorem everyStepKeepsTheRetryTable : Obligations.EveryStepKeepsTheRetryTable := by
  intro s t h ht
  cases hp : s.pending with
  | nil =>
    rw [step, hp] at ht
    cases ht
    exact retries_of_cp h (idle_cp s)
  | cons c rest =>
    rw [step, hp] at ht
    exact retries_exec (s := { s with pending := rest }) h ht

end Sys2Proof.Proofs

/-!
PROOFS. The identity and the status of the part, RESUME request by request, and the commands of the MU.
-/
namespace Sys2Proof.Proofs

open Sys2Proof.Machine Sys2Proof.Claims

/-! ### Commands that complete in the state they make (R134, R136) -/

/-- A command whose own part completes it in a state with the same command queue leaves that state completed. -/
theorem begins_completes {s u : State} {e : CommandEntry} {rest : List CommandEntry} {c : Command} {args : List Word}
    {own : CommandEntry → State} {status : Status} {words : List Word} (hb : Begins s e rest)
    (hc : Carries e (codeOf c) args) (hcount : args.length ∈ countsOf (codeOf c))
    (hrange : List.Forall₂ Within args (rangesOf (codeOf c) args)) (hown : own e = u.complete status words)
    (hcp : u.cp = s.cp) : s.begins c own = finished u e rest status words := by
  have ⟨_, hq, _⟩ := hb
  rw [begins_of_carries hb hc hcount (inRange_of_forall₂ hrange), hown, complete_eq_finished (by rw [hcp, hq])]

/-! ### IDENTIFY and READ_STATUS (R146, R147) -/

/-- Settles O23: the nine words are a constant of the model, and no state enters them. -/
theorem identifyReturnsFixedWords : Obligations.IdentifyReturnsFixedWords :=
  fun _ _ _ hb hc => congrArg _ (begins_answers (c := .identify) hb hc (by decide) .nil (fun _ => identityWords))

/-- READ_STATUS answers in the state that the MU has made of what is on its way (R147; log entry 20). -/
theorem exec_readStatus {s : State} {e : CommandEntry} {rest : List CommandEntry} (hb : Begins s e rest)
    (hc : Carries e 0x02#8 []) :
    exec .readStatus s = .next (finished s.deliver e rest .ok s.deliver.statusWords) :=
  congrArg _ (begins_completes (c := .readStatus) hb hc (by decide) .nil rfl (deliver_cp s))

theorem linkWord_eq (l : Link) : numWord l.code = if l = .up then 1#32 else 0#32 := by
  cases l <;> rfl

/-- The word of a known flag (R13; log entry 19). -/
theorem knownWord_eq (o : Option Half) : flagWord o.isSome = if o = none then 0#32 else 1#32 := by
  cases o <;> rfl

/-- The taking of notices changes none of what READ_STATUS reports but the status word. -/
theorem statusWords_deliver {s : State} {e : CommandEntry} {rest : List CommandEntry} (hq : s.cp.queue = e :: rest) :
    s.deliver.statusWords = [s.deliver.statusWord, numWord s.se.generation.toNat, numWord s.se.commit.code,
      numWord s.se.commit.modeCode, numWord s.se.commit.targetCode, numWord (rest.length + 1),
      numWord s.iq.replies.length, numWord s.iq.reserved, numWord s.iq.hold.toNat,
      (if s.rpu.linkIn = .up then 1#32 else 0#32), (if s.rpu.linkOut = .up then 1#32 else 0#32),
      numWord (s.rpu.lastCycle.getD 0#16).toNat, (if s.rpu.lastCycle = none then 0#32 else 1#32),
      numWord s.iq.lifetime.toNat] := by
  rw [State.statusWords, deliver_se, deliver_cp, deliver_iq, deliver_rpu, hq, linkWord_eq, linkWord_eq, knownWord_eq,
    List.length_cons]

/-- Settles O24: the commit state, its mode and its target by the three commit states; the other words are alike in
all of them. -/
theorem readStatusReturnsTheState : Obligations.ReadStatusReturnsTheState := by
  intro s e rest mode target hb hc hnone hsome
  have ⟨_, hq, _⟩ := hb
  rw [exec_readStatus hb hc, statusWords_deliver hq]
  cases hcommit : s.se.commit with
  | none =>
    obtain ⟨rfl, rfl⟩ := hnone hcommit
    rfl
  | validating o | pending o =>
    obtain ⟨rfl, rfl⟩ := hsome o (by simp [hcommit])
    rw [← modeWord_eq]
    rfl

/-! ### RESUME, request by request (R169, R179) -/

theorem exec_resume {s : State} {e : CommandEntry} {rest : List CommandEntry} (hb : Begins s e rest)
    (hc : Carries e 0x52#8 []) :
    exec .resume s = .next (if s.rpu.mode = .bypass then s.setFlight (.resuming .records)
      else s.complete .wrongMode []) :=
  congrArg _ (begins_of_no_args (c := .resume) hb hc (by decide) _)

/-- The requests of a RESUME in flight that one DYNAMIC_RECORD_CLEAR takes. -/
theorem exec_dynamicRecordClear {s : State} {e : CommandEntry} {rest : List CommandEntry} {next : ResumeStep}
    (h : Waits s e rest (.resuming next)) (last : ResumeStep) :
    exec (.dynamicRecordClear last) s = .next ((resumeSteps next last).foldl State.resumeStep s) := by
  obtain ⟨hheld, -, hf⟩ := h
  show execDynamicRecordClear last s = _
  rw [execDynamicRecordClear, if_neg (by simp [hheld]), hf]

/-- A cleared axis record is WAITING where the ACTIVE bank defines the axis, and UNBOUND elsewhere (R68). -/
theorem clearRecords_axisRecords_eq (e : Se) (i : Fin 16) :
    e.clearRecords.axisRecords[i] = .cleared (if e.active.axes[i] = none then .unbound else .waiting) := by
  rw [clearRecords_axisRecords]
  cases e.active.axes[i] <;> rfl

theorem clearRecords_trackRecords (e : Se) (t : Fin 32) : e.clearRecords.trackRecords[t] = .cleared := by
  simp [Se.clearRecords]

/-- Settles O38: RESUME by the mode it finds, and each DYNAMIC_RECORD_CLEAR by the requests it takes. -/
theorem resumeClearsRecordsThenRuns : Obligations.ResumeClearsRecordsThenRuns := by
  intro s e rest
  refine ⟨fun hb hc hmode => ?_, fun hb hc hmode => ?_, fun hw => ?_, fun hw => ?_, fun hw => ?_⟩
  · rw [exec_resume hb hc, if_pos hmode]
    rfl
  · have ⟨_, hq, _⟩ := hb
    rw [exec_resume hb hc, if_neg hmode, complete_eq_finished hq]
  · have ⟨_, hq, _⟩ := hw
    refine ⟨s.se.clearRecords.axisRecords, s.se.clearRecords.trackRecords, exec_dynamicRecordClear hw .records, ?_,
      clearRecords_axisRecords_eq s.se, clearRecords_trackRecords s.se⟩
    rw [exec_dynamicRecordClear hw]
    show Host.Outcome.next (State.complete (State.setFlight
      (State.setMode { s with se := s.se.clearRecords } .running) (.resuming .reply)) .ok []) = _
    refine congrArg _ ((complete_eq_finished ?_ _ _).trans (finished_setFlight _ _ _ _ _ _))
    exact hq
  · exact exec_dynamicRecordClear hw .mode
  · have ⟨_, hq, _⟩ := hw
    exact (exec_dynamicRecordClear hw .reply).trans (congrArg _ (complete_eq_finished hq _ _))

/-! ### READ_FAULT and CLEAR_FAULT (R162, R163) -/

/-- READ_FAULT answers the record as a read finds it (R162, R193). -/
theorem exec_readFault {s : State} {e : CommandEntry} {rest : List CommandEntry} (hb : Begins s e rest)
    (hc : Carries e 0x40#8 []) :
    exec .readFault s = .next (finished s.atRead e rest .ok (faultWords s.atRead.mu.fault)) :=
  congrArg _ (begins_completes (c := .readFault) hb hc (by decide) .nil rfl (atRead_cp s))

/-- CLEAR_FAULT answers the same and empties the record (R163). -/
theorem exec_clearFault {s : State} {e : CommandEntry} {rest : List CommandEntry} (hb : Begins s e rest)
    (hc : Carries e 0x41#8 []) :
    exec .clearFault s = .next (finished { s.atRead with mu := { s.atRead.mu with fault := none } } e rest .ok
      (faultWords s.atRead.mu.fault)) :=
  congrArg _ (begins_completes (c := .clearFault) (u := { s.atRead with mu := { s.atRead.mu with fault := none } })
    hb hc (by decide) .nil rfl (atRead_cp s))

/-! ### READ_COUNTERS (R164, R194) -/

/-- The order of READ_COUNTERS is that of the places of the counters (R164). -/
theorem map_index_counterOrder : counterOrder.map Counter.index = List.finRange 16 := by decide

theorem index_of_getElem?_counterOrder {c : Counter} {k : Nat} (h : counterOrder[k]? = some c) : c.index.val = k := by
  have hk : (List.finRange 16)[k]? = some c.index := by
    rw [← map_index_counterOrder, List.getElem?_map, h]
    rfl
  obtain ⟨_, hget⟩ := List.getElem?_eq_some_iff.mp hk
  rw [← hget, List.getElem_finRange, Fin.val_cast]

/-- The words of READ_COUNTERS, counter by counter in their order (R164). -/
theorem counterWords_eq (m : Mu) :
    counterWords m = counterOrder.map (fun c => numWord m.counters[c.index].toNat) := by
  have hvalues : m.counters.toList = (List.finRange 16).map (fun i => m.counters[i]) :=
    List.ext_getElem (by simp) (by simp)
  rw [counterWords, hvalues, ← map_index_counterOrder, List.map_map, List.map_map]
  rfl

/-- A READ_COUNTERS at the head leaves the increments of the commands behind it alone (R164). -/
theorem atCount_of_queue {s : State} {e : CommandEntry} {rest : List CommandEntry} (hq : s.cp.queue = e :: rest) :
    s.atCount = s.atRead.acceptedBefore rest.length := by
  rw [State.atCount, hq, List.tail_cons]

/-- READ_COUNTERS answers the counters, and with the clear flag yes sets them to 0 (R164, R194). -/
theorem exec_readCounters {s : State} {e : CommandEntry} {rest : List CommandEntry} {clear : Bool}
    (hb : Begins s e rest) (hc : Carries e 0x42#8 [flagWord clear]) :
    exec .readCounters s = .next (finished
      (if clear then { s.atCount with mu := { s.atCount.mu with counters := Vector.replicate 16 0#16 } } else s.atCount)
      e rest .ok (counterWords s.atCount.mu)) := by
  have hclear : e.yes 0 = clear := yes_of_num (num_of_carries hc 0)
  have hcount : [flagWord clear].length ∈ countsOf (codeOf .readCounters) := List.mem_singleton.mpr rfl
  refine congrArg _ (begins_completes (c := .readCounters) hb hc hcount (.cons (within_flagWord clear) .nil) ?_ ?_)
  · rw [hclear]
    cases clear <;> rfl
  · cases clear <;> exact atCount_cp s

/-! ### SET_ATTENTION_MASK and ACK_ATTENTION (R165, R166) -/

/-- The four flags of SET_ATTENTION_MASK or ACK_ATTENTION are read back from their words, which stand in the order of
the words that answer the latches (R165, R166). -/
theorem latchFlags_of_carries {e : CommandEntry} {code : Byte} {l : Latches} (hc : Carries e code (latchWords l)) :
    e.latchFlags = l := by
  have hfault : e.yes 0 = l.fault := yes_of_num (num_of_carries hc 0)
  have haxisLost : e.yes 1 = l.axisLost := yes_of_num (num_of_carries hc 1)
  have hcommitDone : e.yes 2 = l.commitDone := yes_of_num (num_of_carries hc 2)
  have hlinkChange : e.yes 3 = l.linkChange := yes_of_num (num_of_carries hc 3)
  rw [CommandEntry.latchFlags, hfault, haxisLost, hcommitDone, hlinkChange]

theorem within_latchWords (l : Latches) :
    List.Forall₂ Within (latchWords l) [(0, 1), (0, 1), (0, 1), (0, 1)] :=
  .cons (within_flagWord _) (.cons (within_flagWord _) (.cons (within_flagWord _) (.cons (within_flagWord _) .nil)))

/-- SET_ATTENTION_MASK replaces the mask (R165). -/
theorem exec_setAttentionMask {s : State} {e : CommandEntry} {rest : List CommandEntry} {mask : Latches}
    (hb : Begins s e rest) (hc : Carries e 0x43#8 (latchWords mask)) :
    exec .setAttentionMask s = .next (finished { s with mu := { s.mu with mask := mask } } e rest .ok []) := by
  have hcount : (latchWords mask).length ∈ countsOf (codeOf .setAttentionMask) := List.mem_singleton.mpr rfl
  refine congrArg _ (begins_completes (c := .setAttentionMask) hb hc hcount (within_latchWords mask) ?_ ?_)
  · rw [latchFlags_of_carries hc]
  · rfl

/-- ACK_ATTENTION answers the latches as they stood and clears the marked ones (R166). -/
theorem exec_ackAttention {s : State} {e : CommandEntry} {rest : List CommandEntry} {marked : Latches}
    (hb : Begins s e rest) (hc : Carries e 0x44#8 (latchWords marked)) :
    exec .ackAttention s = .next (finished
      { s.deliver with mu := { s.deliver.mu with latches := s.deliver.mu.latches.acknowledge marked } } e rest .ok
      (latchWords s.deliver.mu.latches)) := by
  have hcount : (latchWords marked).length ∈ countsOf (codeOf .ackAttention) := List.mem_singleton.mpr rfl
  refine congrArg _ (begins_completes (c := .ackAttention) hb hc hcount (within_latchWords marked) ?_ ?_)
  · rw [latchFlags_of_carries hc]
  · exact deliver_cp s

/-- A latch stays exactly when it was set and is not marked (R166). -/
theorem acknowledge_eq (l marked : Latches) : l.acknowledge marked =
    { fault := if marked.fault then false else l.fault
      axisLost := if marked.axisLost then false else l.axisLost
      commitDone := if marked.commitDone then false else l.commitDone
      linkChange := if marked.linkChange then false else l.linkChange } := by
  have hlatch (held mark : Bool) : (held && !mark) = if mark then false else held := by cases mark <;> simp
  simp only [Latches.acknowledge, hlatch]

theorem latchWords_eq (l : Latches) : latchWords l =
    [if l.fault then 1#32 else 0#32, if l.axisLost then 1#32 else 0#32, if l.commitDone then 1#32 else 0#32,
      if l.linkChange then 1#32 else 0#32] := by
  simp only [latchWords, flagWord_eq]

/-- Settles O27: each command of the MU by what it answers and what it leaves. -/
theorem monitorCommandsReadAndClear : Obligations.MonitorCommandsReadAndClear := by
  refine ⟨fun s e rest u words hb hu hnone hsome => ?_, fun c k => index_of_getElem?_counterOrder,
    fun s e rest u hb hu => ⟨fun hc => ?_, fun hc => ?_⟩,
    fun s e rest a b c d u hb hu => ⟨fun hc => ?_, fun hc => ?_⟩⟩
  · have hwords : words = faultWords u.mu.fault := by
      cases hfault : u.mu.fault with
      | none => exact hnone hfault
      | some x =>
        rw [hsome x hfault, faultWords]
        cases x.report.code <;> rfl
    subst hu hwords
    exact ⟨exec_readFault hb, exec_clearFault hb⟩
  · have ⟨_, hq, _⟩ := hb
    rw [exec_readCounters (clear := false) hb hc, counterWords_eq, atCount_of_queue hq, ← hu]
    rfl
  · have ⟨_, hq, _⟩ := hb
    rw [exec_readCounters (clear := true) hb hc, counterWords_eq, atCount_of_queue hq, ← hu]
    exact ⟨_, rfl, fun c => by simp, rfl⟩
  · exact exec_setAttentionMask (mask := ⟨a, b, c, d⟩) hb hc
  · rw [exec_ackAttention (marked := ⟨a, b, c, d⟩) hb hc, acknowledge_eq, latchWords_eq, hu]

end Sys2Proof.Proofs

/-!
PROOFS. The reset pin and the start-up behind it, and the address rule of a valid ENUMERATE frame.
-/
namespace Sys2Proof.Proofs

open Sys2Proof.Machine Sys2Proof.Claims

/-! ### While the pin is held (R182; log entry 1) -/

theorem beginsIf_of_held {s : State} (h : s.resetHeld = true) (admits : CommandEntry → Bool)
    (own : CommandEntry → State) : s.beginsIf admits own = s :=
  if_pos h

theorem receives_of_held {s : State} (h : s.resetHeld = true) (f : Frame) : ¬ s.receives f = true := by
  simp [State.receives, h]

/-- While RESET_N is low a command finds its row's guard closed: a command of the CP does not begin, a frame is not
received, and every other row tests the pin itself. -/
theorem exec_of_held {c : Instr} {s : State} (h : s.resetHeld = true) (hlow : c ≠ .resetPinAsserted)
    (hhigh : c ≠ .resetPinReleased) : exec c s = .next s := by
  cases c with
  | resetPinAsserted => exact absurd rfl hlow
  | resetPinReleased => exact absurd rfl hhigh
  | receiveSample f | receiveDamaged f | receiveCommand f | receiveReply f | receiveEnumerate f | receiveForeign f =>
    exact if_neg (receives_of_held h f)
  | lineAcquired _ | lineLost _ | rxAbort _ => exact if_pos (by simp [h])
  | sampleEvaluation | lostSample | replySent | replyExpired _ | validationComplete | commitDrop
  | dynamicRecordClear _ | seTableReset _ => exact if_pos h
  | sendForwardBegin | sendReplyBegin | frameForwarded | outDiscard | copyComplete | clearComplete =>
    exact if_neg (by simp [h])
  | releaseAddress => exact (if_neg (by simp [h])).trans (congrArg _ (beginsIf_of_held h _ _))
  | identify | readStatus | defineAxis | clearAxis | defineTrack | clearTrack | loadWindows | stageCopy | stageClear
  | defineStatusSlot | commit | cancelCommit | readAxis | readTrack | readWindows | readPool | readFault | clearFault
  | readCounters | setAttentionMask | ackAttention | setReplyLifetime | bypass | resume | resetTables | resetAll
  | unknownCommand => exact congrArg _ (beginsIf_of_held h _ _)

/-! ### The start-up (R21, R183, R198, R202; log entry 20) -/

/-- The part once RESET_N has returned high and before any line is acquired (R182, R183): only the model's own fields
are left of the state in which the pin went low. -/
def started (s : State) : State :=
  { s with rpu := .reset, iq := .reset, se := .reset, cp := .reset, mu := .reset, onWay := [], resetHeld := false }

theorem exec_resetPin (s : State) :
    ∃ t, exec .resetPinAsserted s = .next t ∧ exec .resetPinReleased t = .next (started s) :=
  ⟨_, rfl, rfl⟩

/-- The line acquired first finds its port DOWN and yet to start, so it sets the latch at once, without a notice. -/
theorem exec_lineAcquired_started (s : State) (port : Port) :
    exec (.lineAcquired port) (started s) = .next
      { started s with rpu := Rpu.reset.acquired port, mu := Mu.reset.latch .linkChange } :=
  exec_lineAcquired_first rfl (by cases port <;> rfl) (by cases port <;> rfl)

/-- The status word of a part without an address whose SE and MU are as after the pin, but for latch LINK_CHANGE: the
latch (bit 21) and the attention summary (bit 26) stand alone (R198, R199). -/
theorem statusWord_startUp {s : State} (hmode : s.rpu.mode = .unaddressed) (haddress : s.rpu.address = 0#8)
    (hse : s.se = .reset) (hmu : s.mu = Mu.reset.latch .linkChange) : s.statusWord = 0x04200000#32 := by
  have hlost : Se.reset.lostAxes = 0 := by decide
  rw [State.statusWord, hmode, haddress, hse, hmu, hlost]
  rfl

/-- Settles O9: the two rows of the pin by definition, every other row by its guard, the start-up row by row. -/
theorem resetPinHoldsEveryBlock : Obligations.ResetPinHoldsEveryBlock := by
  refine ⟨fun _ => rfl, fun _ => rfl, fun _ _ => exec_of_held, fun s port => ?_⟩
  obtain ⟨t, hlow, hhigh⟩ := exec_resetPin s
  have hmode : (Rpu.reset.acquired port).mode = .unaddressed := by cases port <;> rfl
  have haddress : (Rpu.reset.acquired port).address = 0#8 := by cases port <;> rfl
  refine ⟨t, _, _, hlow, hhigh, exec_lineAcquired_started s port, rfl, rfl, ?_⟩
  rw [statusWord_startUp hmode haddress rfl rfl]
  decide

/-! ### A valid ENUMERATE frame as it leaves (R14, R16, R174) -/

/-- A frame of a body and four more bytes, resealed, is the body sealed: the four bytes give way to its CRC (R16). -/
theorem resealed_append (body : List Byte) (a b c d : Byte) : resealed (body ++ [a, b, c, d]) = sealed body := by
  have hcovered : covered (body ++ [a, b, c, d]) = body := by simp [covered]
  rw [resealed, hcovered]
  simp [putWord, sealed, wordBytes]

theorem raisedHop_eq (f : Frame) : raisedHop f = byteUp (byteAt f 2) := by
  unfold raisedHop byteUp
  split
  · next h => exact h.symm
  · rfl

theorem kind_and_length_of_enumerate {f : Frame} (h : classify f = .enumerate true) :
    byteAt f 0 = 4#8 ∧ f.length = 7 := by
  unfold classify at h
  split_ifs at h with _ _ _ _ _ hkind
  exact ⟨hkind, (enumerateLengthOk_iff f).mp (by simpa using h)⟩

theorem enumerateLeaving_eq {f : Frame} (hc : classify f = .enumerate true) (next : Byte) :
    enumerateLeaving f next = sealed [4#8, next, byteUp (byteAt f 2)] := by
  obtain ⟨hkind, hlength⟩ := kind_and_length_of_enumerate hc
  rw [enumerateLeaving, raisedHop_eq]
  match f, hlength with
  | [k, _, hop, a, b, c, d], _ =>
    obtain rfl : k = 4#8 := hkind
    exact resealed_append [4#8, next, byteUp hop] a b c d

/-! ### The address rule (R175) -/

theorem assignable_iff (a : Byte) : assignable a = true ↔ 1 ≤ a.toNat ∧ a.toNat ≤ 250 := by simp [assignable]

/-- An UNADDRESSED part takes an assignable next address, and the frame leaves with the next one (R175). -/
theorem routeEnumerate_takes {s : State} {f : Frame} (hc : classify f = .enumerate true)
    (hmode : s.rpu.mode = .unaddressed) (ha : assignable (byteAt f 1) = true) :
    s.endReception.routeEnumerate f = { s with
      rpu := { (placed s (sealed [4#8, byteAt f 1 + 1#8, byteUp (byteAt f 2)]) .ready).rpu with
        address := byteAt f 1, mode := .running } } := by
  rw [← enumerateLeaving_eq hc]
  exact if_pos ⟨hmode, ha⟩

/-- In every other case the part keeps its address and the frame its next address (R175). -/
theorem routeEnumerate_passes {s : State} {f : Frame} (hc : classify f = .enumerate true)
    (h : ¬ (s.rpu.mode = .unaddressed ∧ assignable (byteAt f 1) = true)) :
    s.endReception.routeEnumerate f = placed s (sealed [4#8, byteAt f 1, byteUp (byteAt f 2)]) .ready := by
  rw [← enumerateLeaving_eq hc]
  exact if_neg h

/-- Settles O15: the frame has a place, so its route is taken: by the address rule where the part is UNADDRESSED and the
next address assignable, past it elsewhere. -/
theorem enumerateGivesAnAddress : Obligations.EnumerateGivesAnAddress := by
  intro s f ha hroom hc
  rw [exec_receiveEnumerate_valid ha hc, ifRoom_of_hasRoom hroom]
  refine ⟨fun hmode hlow hhigh => ?_, fun hother => ?_⟩
  · rw [routeEnumerate_takes hc hmode ((assignable_iff _).mpr ⟨hlow, hhigh⟩)]
  · rw [routeEnumerate_passes hc]
    rintro ⟨hmode, hassign⟩
    obtain ⟨hlow, hhigh⟩ := (assignable_iff _).mp hassign
    rcases hother with hother | hzero | hbeyond
    · exact hother hmode
    · simp [hzero] at hlow
    · omega

end Sys2Proof.Proofs

/-!
PROOFS. The status word, read back field by field.
-/
namespace Sys2Proof.Proofs

open Sys2Proof.Machine Sys2Proof.Claims

/-! ### Numbers packed side by side -/

/-- The number of bits of packed fields, each given by its width and its value. -/
def packedWidth (l : List (Nat × Nat)) : Nat := (l.map Prod.fst).sum

/-- Fields packed side by side, the first in the most significant bits. -/
def packed (l : List (Nat × Nat)) : Nat :=
  match l with
  | [] => 0
  | (_, value) :: rest => value * 2 ^ packedWidth rest + packed rest

/-- Every value fits its width. -/
def FieldsFit (l : List (Nat × Nat)) : Prop := ∀ p ∈ l, p.2 < 2 ^ p.1

theorem packed_append (a b : List (Nat × Nat)) : packed (a ++ b) = packed a * 2 ^ packedWidth b + packed b := by
  induction a with
  | nil => simp [packed]
  | cons p rest ih =>
    have hwidth : packedWidth (rest ++ b) = packedWidth rest + packedWidth b := by simp [packedWidth]
    show p.2 * 2 ^ packedWidth (rest ++ b) + packed (rest ++ b)
      = (p.2 * 2 ^ packedWidth rest + packed rest) * 2 ^ packedWidth b + packed b
    rw [hwidth, ih, Nat.pow_add]
    ring

theorem packed_lt {l : List (Nat × Nat)} (h : FieldsFit l) : packed l < 2 ^ packedWidth l := by
  induction l with
  | nil => exact Nat.one_pos
  | cons p rest ih =>
    obtain ⟨hp, hrest⟩ := List.forall_mem_cons.mp h
    have hlow := ih hrest
    calc p.2 * 2 ^ packedWidth rest + packed rest
      _ < (p.2 + 1) * 2 ^ packedWidth rest := by rw [Nat.add_one_mul]; omega
      _ ≤ 2 ^ p.1 * 2 ^ packedWidth rest := Nat.mul_le_mul_right _ hp
      _ = 2 ^ packedWidth (p :: rest) := (Nat.pow_add 2 p.1 _).symm

/-- A field is read back from above the fields behind it. -/
theorem packed_field {before after : List (Nat × Nat)} {width value : Nat}
    (h : FieldsFit (before ++ (width, value) :: after)) :
    packed (before ++ (width, value) :: after) / 2 ^ packedWidth after % 2 ^ width = value := by
  obtain ⟨hvalue, hafter⟩ := List.forall_mem_cons.mp (List.forall_mem_append.mp h).2
  have hsplit : packed (before ++ (width, value) :: after)
      = 2 ^ packedWidth after * (2 ^ width * packed before + value) + packed after := by
    have hwidth : packedWidth ((width, value) :: after) = width + packedWidth after := rfl
    rw [packed_append, hwidth, packed, Nat.pow_add]
    ring
  rw [hsplit, Nat.mul_add_div (Nat.two_pow_pos _), Nat.div_eq_of_lt (packed_lt hafter), Nat.add_zero,
    Nat.mul_add_mod, Nat.mod_eq_of_lt hvalue]

/-! ### The fields of the status word (Table 1-6, R199) -/

/-- The fields of the status word with their widths, from bit 31 down (Table 1-6). -/
def statusFields (s : State) : List (Nat × Nat) :=
  [(2, s.rpu.mode.code), (1, s.se.selector.code), (2, s.se.commit.code), (1, flag s.mu.summary),
    (1, flag s.mu.fault.isSome), (1, flag s.mu.latches.fault), (1, flag s.mu.latches.axisLost),
    (1, flag s.mu.latches.commitDone), (1, flag s.mu.latches.linkChange), (5, s.se.lostAxes),
    (8, s.se.generation.toNat % 256), (8, s.rpu.address.toNat)]

theorem statusWord_eq_packed (s : State) : s.statusWord = BitVec.ofNat 32 (packed (statusFields s)) := by
  refine congrArg (BitVec.ofNat 32) ?_
  simp [statusFields, packed, packedWidth, Nat.add_assoc]

theorem flag_lt_two (b : Bool) : flag b < 2 := by cases b <;> decide

theorem mode_code_lt_four (m : Mode) : m.code < 4 := by cases m <;> decide

theorem bank_code_lt_two (name : BankName) : name.code < 2 := by cases name <;> decide

theorem commit_code_lt_four (c : Commit) : c.code < 4 := by cases c <;> simp [Commit.code]

/-- There are sixteen axes, so the number of those in LOST takes five bits (R63). -/
theorem lostAxes_lt (e : Se) : e.lostAxes < 32 := by
  have hle : e.lostAxes ≤ e.axisRecords.toList.length := List.countP_le_length
  have hlen : e.axisRecords.toList.length = 16 := Vector.length_toList
  omega

theorem fieldsFit_statusFields (s : State) : FieldsFit (statusFields s) := by
  simp only [FieldsFit, statusFields, List.forall_mem_cons]
  exact ⟨mode_code_lt_four _, bank_code_lt_two _, commit_code_lt_four _, flag_lt_two _, flag_lt_two _, flag_lt_two _,
    flag_lt_two _, flag_lt_two _, flag_lt_two _, lostAxes_lt _, Nat.mod_lt _ (by decide), s.rpu.address.isLt, nofun⟩

theorem statusWord_toNat (s : State) : s.statusWord.toNat = packed (statusFields s) := by
  rw [statusWord_eq_packed]
  exact BitVec.toNat_ofNat _ _ ▸ Nat.mod_eq_of_lt (packed_lt (fieldsFit_statusFields s))

/-- A field of the status word is read back from its place, given by the number of the fields above it. -/
theorem statusWord_field (s : State) (k : Nat) {start width value : Nat}
    (hk : (statusFields s)[k]? = some (width, value)) (hstart : packedWidth ((statusFields s).drop (k + 1)) = start) :
    (s.statusWord.extractLsb' start width).toNat = value := by
  obtain ⟨hlt, hget⟩ := List.getElem?_eq_some_iff.mp hk
  have hsplit : statusFields s = (statusFields s).take k ++ (width, value) :: (statusFields s).drop (k + 1) := by
    rw [← hget, List.cons_getElem_drop_succ, List.take_append_drop]
  have hfit := fieldsFit_statusFields s
  rw [hsplit] at hfit
  rw [BitVec.extractLsb'_toNat, statusWord_toNat, Nat.shiftRight_eq_div_pow, ← hstart]
  exact (congrArg (fun l => packed l / _ % _) hsplit).trans (packed_field hfit)

/-- A flag of the status word is the bit at its place. -/
theorem statusWord_flag (s : State) (k : Nat) {start : Nat} {b : Bool} (hk : (statusFields s)[k]? = some (1, flag b))
    (hstart : packedWidth ((statusFields s).drop (k + 1)) = start) : s.statusWord.getLsbD start = b := by
  have hbit : (s.statusWord.toNat >>> start) % 2 = flag b :=
    (BitVec.extractLsb'_toNat start 1 s.statusWord).symm.trans (statusWord_field s k hk hstart)
  rw [BitVec.getLsbD, Nat.testBit_eq_decide_div_mod_eq, ← Nat.shiftRight_eq_div_pow, hbit]
  cases b <;> rfl

theorem bank_code_eq_flag (name : BankName) : name.code = flag (decide (name = .b)) := by cases name <;> rfl

/-- The attention summary: a latch is set whose enable is set (R198). -/
theorem summary_iff (m : Mu) : m.summary = true ↔
    (m.latches.fault = true ∧ m.mask.fault = true) ∨ (m.latches.axisLost = true ∧ m.mask.axisLost = true)
      ∨ (m.latches.commitDone = true ∧ m.mask.commitDone = true)
      ∨ (m.latches.linkChange = true ∧ m.mask.linkChange = true) := by
  simp only [Mu.summary, Bool.or_eq_true, Bool.and_eq_true, or_assoc]

/-- Settles O8: each field read back by its row of Table 1-6; the selector is a flag, and the summary is R198's. -/
theorem statusWordFields : Obligations.StatusWordFields := by
  intro s
  have hbank : (statusFields s)[1]? = some (1, flag (decide (s.se.selector = .b))) :=
    congrArg (fun x => some (1, x)) (bank_code_eq_flag s.se.selector)
  have hsummary : s.statusWord.getLsbD 26 = s.mu.summary := statusWord_flag s 3 rfl rfl
  refine ⟨statusWord_field s 0 rfl rfl, statusWord_flag s 1 hbank rfl, statusWord_field s 2 rfl rfl,
    hsummary ▸ summary_iff s.mu, statusWord_flag s 4 rfl rfl, statusWord_flag s 5 rfl rfl,
    statusWord_flag s 6 rfl rfl, statusWord_flag s 7 rfl rfl, statusWord_flag s 8 rfl rfl,
    statusWord_field s 9 rfl rfl, statusWord_field s 10 rfl rfl,
    BitVec.eq_of_toNat_eq (statusWord_field s 11 rfl rfl)⟩

end Sys2Proof.Proofs

/-!
PROOFS. How the MU takes a fault report, an increment and a latch report, and how it takes what is on its way to it.
-/
namespace Sys2Proof.Proofs

open Sys2Proof.Machine Sys2Proof.Claims

/-! ### A fault report and an increment (R189, R192) -/

theorem byteUp_toNat (b : Byte) : (byteUp b).toNat = min (b.toNat + 1) 255 := by
  by_cases h : b.toNat < 255
  · rw [(byteUp_of_lt h).2]
    omega
  · obtain rfl : b = 255#8 := BitVec.eq_of_toNat_eq (by have := b.isLt; simp; omega)
    rfl

theorem report_of_none {m : Mu} (h : m.fault = none) (cycle : Option Half) (r : Report) :
    (m.report cycle r).fault = some { report := r, cycle := cycle.getD 0#16, further := 0#8 } := by
  rw [Mu.report, h]

theorem report_of_some {m : Mu} {held : FaultRecord} (h : m.fault = some held) (cycle : Option Half) (r : Report) :
    (m.report cycle r).fault = some { held with further := byteUp held.further } := by
  rw [Mu.report, h]

/-- Each place of READ_COUNTERS is that of a counter (R164). -/
theorem index_surjective : Function.Surjective Counter.index := fun i => by
  have hi : i ∈ counterOrder.map Counter.index := map_index_counterOrder ▸ List.mem_finRange i
  obtain ⟨c, -, hc⟩ := List.mem_map.mp hi
  exact ⟨c, hc⟩

/-- An increment raises the counter at its own place, held at 65535, and no other (R192). -/
theorem count_counter_at (m : Mu) (c : Counter) (i : Fin 16) :
    (m.count c).counters[i].toNat
      = if i = c.index then min (m.counters[i].toNat + 1) 65535 else m.counters[i].toNat := by
  obtain ⟨c', rfl⟩ := index_surjective i
  have hmax := m.counters[c'.index].isLt
  rw [count_counter]
  by_cases h : c = c'
  · rw [if_pos h, if_pos (congrArg Counter.index h.symm)]
  · rw [if_neg h, if_neg (fun hi => h (index_injective hi).symm)]
    omega

/-! ### Taking what is on its way (R190, R193; log entry 20) -/

theorem deliver_of_held {s : State} (h : s.resetHeld = true) : s.deliver = s := if_pos h

theorem deliver_of_released {s : State} (h : s.resetHeld = false) : s.deliver = s.deliverBy s.lag :=
  if_neg (by simp [h])

theorem deliver_with_lag {s : State} (h : s.resetHeld = false) (lag : List Nat) :
    State.deliver { s with lag := lag } = s.deliverBy lag :=
  (deliver_of_released (s := { s with lag := lag }) h).trans (deliverBy_lag lag lag s)

/-- With nothing to hold the MU back everything on its way is taken, in some order. -/
theorem deliver_of_no_lag {s : State} (hheld : s.resetHeld = false) (hlag : s.lag = []) :
    ∃ (order : List Notice) (n : Nat), order.Perm (s.onWay.flatMap Event.notices)
      ∧ s.deliver = { s with
        mu := order.foldl (fun m x => m.take s.rpu.lastCycle x) s.mu, onWay := [], choices := n } := by
  rw [deliver_of_released hheld, hlag]
  by_cases hw : s.onWay = []
  · refine ⟨[], s.choices, by rw [hw]; exact .refl _, ?_⟩
    rw [State.deliverBy, if_pos hw, ← hlag, List.foldl_nil, ← hw]
  · obtain ⟨order, hperm, n, h⟩ := takeAll_order { s with onWay := [], lag := [] } (s.onWay.flatMap Event.notices)
    refine ⟨order, n, hperm, ?_⟩
    rw [State.deliverBy, if_neg hw]
    exact hlag ▸ h

/-- A lag that is no position ends the taking. -/
theorem deliver_of_beyond {s : State} {n : Nat} {rest : List Nat} (hheld : s.resetHeld = false) (hw : s.onWay ≠ [])
    (hlag : s.lag = n :: rest) (hn : (s.onWay.flatMap Event.notices).length ≤ n) :
    s.deliver = { s with lag := rest } := by
  rw [deliver_of_released hheld, hlag, State.deliverBy, if_neg hw, pickNotice_beyond _ _ hn]

/-- What is left of an event once the notice between `l` and `r` is taken. -/
theorem without_eq {e : Event} {l r : List Notice} {x : Notice} (he : e.notices = l ++ x :: r) :
    e.without l.length = if l ++ r = [] then []
      else [{ notices := l ++ r, stage := if e.stage = .overdue then .overdue else .split }] := by
  have hleft : e.notices.eraseIdx l.length = l ++ r := by
    rw [he, List.eraseIdx_append_of_length_le (Nat.le_refl _), Nat.sub_self]
    rfl
  rw [Event.without, hleft]
  cases l ++ r <;> rfl

/-- A lag that is the position of a notice takes that notice, and the taking goes on with what is left. -/
theorem deliver_of_position {s : State} {n : Nat} {rest : List Nat} {before after : List Event} {e : Event}
    {l r : List Notice} {x : Notice} (hheld : s.resetHeld = false) (hlag : s.lag = n :: rest)
    (hw : s.onWay = before ++ e :: after) (he : e.notices = l ++ x :: r)
    (hn : n = (before.flatMap Event.notices).length + l.length) :
    s.deliver = State.deliver { s with
      mu := s.mu.take s.rpu.lastCycle x, onWay := before ++ e.without l.length ++ after, lag := rest } := by
  have hsome : s.onWay ≠ [] := by simp [hw]
  have hpick := pickNotice_at before after e l r x he
  rw [← hn, ← hw] at hpick
  rw [deliver_of_released hheld, hlag, State.deliverBy, if_neg hsome, hpick]
  exact (deliver_with_lag (s := { s with
    mu := s.mu.take s.rpu.lastCycle x, onWay := before ++ e.without l.length ++ after }) hheld rest).symm

/-! ### What a read sees (R193) -/

theorem seen_eq (e : Event) : e.seen = if e.stage = .split then { e with stage := .overdue } else e := by
  obtain ⟨notices, stage⟩ := e
  cases stage <;> rfl

/-- A read takes whole what an earlier one saw in part, and marks what it sees in part itself. -/
theorem settle_order (s : State) : ∃ (order : List Notice) (n : Nat),
    order.Perm ((s.onWay.filter (fun e => decide (e.stage = .overdue))).flatMap Event.notices)
    ∧ s.settle = { s with
      mu := order.foldl (fun m x => m.take s.rpu.lastCycle x) s.mu
      onWay := (s.onWay.filter (fun e => decide (e.stage ≠ .overdue))).map
        (fun e => if e.stage = .split then { e with stage := .overdue } else e)
      choices := n } := by
  have hleft : (s.onWay.filter (fun e => !e.isOverdue)).map Event.seen
      = (s.onWay.filter (fun e => decide (e.stage ≠ .overdue))).map
        (fun e => if e.stage = .split then { e with stage := .overdue } else e) := by
    simp only [Event.isOverdue, decide_not]
    exact congrArg (List.map · _) (funext seen_eq)
  obtain ⟨order, hperm, n, h⟩ := takeAll_order
    { s with onWay := (s.onWay.filter (fun e => !e.isOverdue)).map Event.seen }
    ((s.onWay.filter Event.isOverdue).flatMap Event.notices)
  exact ⟨order, n, hperm, by rw [← hleft]; exact h⟩

/-- The increments of accepted commands that are on their way are taken but for the `behind` last ones (R164, R171). -/
theorem acceptedBefore_acceptances (behind : Nat) (s : State) :
    ∃ mu onWay, s.acceptedBefore behind = { s with mu := mu, onWay := onWay }
      ∧ onWay.Sublist s.onWay
      ∧ onWay.filter (fun e => decide (e.notices ≠ [.count .commandsAccepted]))
        = s.onWay.filter (fun e => decide (e.notices ≠ [.count .commandsAccepted]))
      ∧ acceptances onWay = min behind (acceptances s.onWay)
      ∧ mu = { s.mu with counters := mu.counters }
      ∧ ∀ i : Fin 16, mu.counters[i].toNat =
        if i = Counter.commandsAccepted.index then
          min (s.mu.counters[i].toNat + (acceptances s.onWay - behind)) 65535
        else s.mu.counters[i].toNat := by
  simp only [decide_not]
  exact acceptedBefore_eq behind s

/-- Settles O26: what the MU makes of each notice, then the sending, the taking and the reads. -/
theorem monitorTakesReportsAndCounts : Obligations.MonitorTakesReportsAndCounts := by
  refine ⟨fun m cycle r => ⟨rfl, rfl, rfl, fun h => report_of_none h cycle r, fun held h => ?_⟩,
    fun m c => ⟨count_counter_at m c, rfl, rfl, rfl⟩, fun m => ⟨rfl, rfl, rfl⟩,
    fun m cycle => ⟨fun _ => rfl, fun _ => rfl, fun _ => rfl⟩, fun s l => rfl,
    fun s => ⟨fun h => ?_, deliver_of_no_lag, fun n rest hheld hw hlag => ⟨deliver_of_beyond hheld hw hlag, ?_⟩⟩,
    fun s => deliver_rpu s ▸ settle_order s.deliver, fun s behind => acceptedBefore_acceptances behind s⟩
  · exact ⟨_, report_of_some h cycle r, rfl, rfl, byteUp_toNat held.further⟩
  · exact h.elim deliver_of_held (deliver_of_nothing_on_way s)
  · intro before e after l x r hon he hn
    rw [deliver_of_position hheld hlag hon he hn, without_eq he]

end Sys2Proof.Proofs

/-!
PROOFS. Every command ends in a next state, and what waits outside the part stays as it is.
-/
namespace Sys2Proof.Proofs

open Sys2Proof.Machine Sys2Proof.Claims

/-! ### What waits outside the part: the commands and the symbols still to come (log entries 2 and 3) -/

/-- The commands that wait and the symbols that stand on the line. The step itself takes the front command off, and
`State.idle` goes on with both; no command changes either. -/
def awaited (s : State) : List Instr × List LineSymbol := (s.pending, s.line)

theorem awaited_eq_iff {s t : State} : awaited t = awaited s ↔ t.pending = s.pending ∧ t.line = s.line :=
  Prod.mk_inj

theorem awaited_send (s : State) (l : List (List Notice)) : awaited (s.send l) = awaited s :=
  awaited_eq_iff.mpr ⟨send_pending s l, send_line s l⟩

theorem awaited_deliver (s : State) : awaited s.deliver = awaited s :=
  awaited_eq_iff.mpr ⟨deliver_pending s, deliver_line s⟩

theorem awaited_atRead (s : State) : awaited s.atRead = awaited s :=
  awaited_eq_iff.mpr ⟨atRead_pending s, atRead_line s⟩

theorem awaited_atCount (s : State) : awaited s.atCount = awaited s :=
  awaited_eq_iff.mpr ⟨atCount_pending s, atCount_line s⟩

theorem awaited_acceptedBefore (behind : Nat) (s : State) : awaited (s.acceptedBefore behind) = awaited s :=
  awaited_eq_iff.mpr ⟨acceptedBefore_pending behind s, acceptedBefore_line behind s⟩

theorem awaited_complete (s : State) (status : Status) (words : List Word) :
    awaited (s.complete status words) = awaited s :=
  awaited_eq_iff.mpr ⟨complete_pending s status words, complete_line s status words⟩

/-! ### The routes of a received frame (R24 to R30) -/

/-- A frame whose reception ends leaves what waits to its routes (R30). -/
theorem awaited_ifRoom {s : State} (f : Frame) {routes : State → State}
    (hroutes : awaited (routes s.endReception) = awaited s.endReception) :
    awaited (s.endReception.ifRoom f routes) = awaited s := by
  rcases ifRoom_cases s.endReception f routes with ⟨-, h⟩ | ⟨-, h⟩ <;> rw [h]
  · exact awaited_send _ _
  · exact hroutes

theorem awaited_routeLost (s : State) (f : Frame) : awaited (s.routeLost f) = awaited s := by
  unfold State.routeLost State.announceLost
  split <;> rfl

theorem awaited_routeSample (s : State) (f : Frame) : awaited (s.routeSample f) = awaited s := by
  unfold State.routeSample
  split <;> rfl

theorem awaited_routeEnumerate (s : State) (f : Frame) : awaited (s.routeEnumerate f) = awaited s := by
  unfold State.routeEnumerate
  split <;> rfl

theorem awaited_takeDuplicate (s : State) (r : RetryEntry) : awaited (s.takeDuplicate r) = awaited s := by
  unfold State.takeDuplicate
  split
  · exact awaited_send _ _
  · split <;> exact awaited_send _ _

/-- An offered unicast command is a duplicate, discarded or accepted (R126). -/
theorem awaited_offerUnicast (s : State) (e : CommandEntry) : awaited (s.offerUnicast e) = awaited s := by
  unfold State.offerUnicast
  split
  · exact awaited_takeDuplicate s _
  · split_ifs <;> exact awaited_send _ _

/-- An offered broadcast is ignored, discarded or accepted (R130). -/
theorem awaited_offerBroadcast (s : State) (e : CommandEntry) : awaited (s.offerBroadcast e) = awaited s := by
  unfold State.offerBroadcast
  split_ifs <;> exact awaited_send _ _

theorem awaited_takeUnicast (s : State) (f : Frame) (valid : Bool) :
    awaited (s.takeUnicast f valid) = awaited s := by
  unfold State.takeUnicast
  split
  · exact awaited_send _ _
  · exact awaited_offerUnicast s _

/-! ### The command at the head and the SE (R48, R98 to R111, R134, R135) -/

/-- Beginning a command leaves what waits to the command's own effect. -/
theorem awaited_beginsIf {s : State} {admits : CommandEntry → Bool} {own : CommandEntry → State}
    (hown : ∀ e, awaited (own e) = awaited s) :
    awaited (s.beginsIf admits own) = awaited s := by
  rcases beginsIf_cases s admits own with h | ⟨e, rest, -, -, -, -, ⟨status, words, -, h⟩ | ⟨-, h⟩⟩ <;> rw [h]
  · exact awaited_complete s status words
  · exact hown e

theorem awaited_edit (s : State) (change : Bank → Bank) (words : Bank → List Word) :
    awaited (s.edit change words) = awaited s := by
  rcases edit_cases s change words with ⟨-, h⟩ | ⟨-, h⟩ <;> rw [h] <;> exact awaited_complete _ _ _

theorem awaited_loadWindows (s : State) (e : CommandEntry) : awaited (s.loadWindows e) = awaited s := by
  unfold State.loadWindows
  simp only
  split_ifs
  · exact awaited_complete s _ _
  · exact awaited_complete s _ _
  · exact awaited_complete s _ _
  · exact awaited_complete s _ _
  · exact awaited_edit s _ _

theorem awaited_startStaged (s : State) (op : StagedOp) (x : Flight) :
    awaited (s.startStaged op x) = awaited s := by
  unfold State.startStaged
  split
  · exact awaited_complete s _ _
  · rfl

theorem awaited_reportTooLate (s : State) (o : CommitOrder) : awaited (s.reportTooLate o) = awaited s := by
  unfold State.reportTooLate
  split
  · rfl
  · exact awaited_send s _

theorem awaited_reportFailed (s : State) (o : CommitOrder) (item : Item) :
    awaited (s.reportFailed o item) = awaited s := by
  unfold State.reportFailed
  split
  · rfl
  · exact awaited_send s _

theorem awaited_startCommit (s : State) (o : CommitOrder) : awaited (s.startCommit o) = awaited s := by
  unfold State.startCommit
  split_ifs
  · exact awaited_complete s _ _
  · exact awaited_complete s _ _
  · exact (awaited_complete _ _ _).trans (awaited_reportTooLate s o)
  · rfl

theorem awaited_finishValidation (s : State) (o : CommitOrder) : awaited (s.finishValidation o) = awaited s := by
  unfold State.finishValidation
  split
  · exact (awaited_complete _ _ _).trans (awaited_reportFailed (s.setCommit .none) o _)
  · split
    · exact (awaited_complete _ _ _).trans (awaited_reportTooLate (s.setCommit .none) o)
    · exact awaited_complete (s.setCommit _) _ _

theorem awaited_evaluate (s : State) (f : Frame) : awaited (s.evaluate f) = awaited s := by
  obtain ⟨mu, onWay, lag, n, h⟩ := evaluate_eq s f
  rw [h]
  rfl

/-! ### The requests of the CP (R177 to R187; log entry 7) -/

theorem awaited_dropCommit (s : State) : awaited s.dropCommit = awaited s := by
  unfold State.dropCommit
  split <;> rfl

theorem awaited_replyDropped (s : State) : awaited s.replyDropped = awaited s := by
  unfold State.replyDropped
  split
  · exact awaited_complete s _ _
  · rfl

theorem awaited_resumeStep (s : State) (g : ResumeStep) : awaited (s.resumeStep g) = awaited s := by
  cases g with
  | records | mode => rfl
  | reply => exact awaited_complete s _ _

theorem awaited_resetStep (s : State) (level : ResetLevel) (g : ResetStep) :
    awaited (s.resetStep level g) = awaited s := by
  cases g with
  | se => rfl
  | iq => cases level <;> rfl
  | rpu =>
    cases level with
    | tables => rfl
    | all => exact awaited_deliver s
  | mu =>
    cases level with
    | tables => rfl
    | all => exact (awaited_acceptedBefore 0 s.deliver).trans (awaited_deliver s)
  | reply => exact awaited_complete s _ _

/-- Requests that each leave what waits as it is do so one after another. -/
theorem awaited_foldl {α : Type} {request : State → α → State}
    (hrequest : ∀ u g, awaited (request u g) = awaited u) (l : List α) (s : State) :
    awaited (l.foldl request s) = awaited s :=
  List.foldlRecOn (motive := fun u => awaited u = awaited s) l request rfl
    (fun u hu g _ => (hrequest u g).trans hu)

/-! ### Every row -/

theorem awaited_receiveCommand {s t : State} {f : Frame} (ht : execReceiveCommand f s = .next t) :
    awaited t = awaited s := by
  rcases execReceiveCommand_cases ht with rfl | ⟨-, valid, -, ⟨-, rfl⟩ | ⟨-, -, -, rfl⟩ | ⟨-, -, rfl⟩⟩
  · rfl
  · exact awaited_takeUnicast s.endReception f valid
  · exact awaited_ifRoom f (awaited_offerBroadcast _ _)
  · exact awaited_ifRoom f rfl

/-- Every row leaves the commands that wait and the symbols on the line as they are. -/
theorem awaited_of_exec {c : Instr} {s t : State} (ht : exec c s = .next t) : awaited t = awaited s := by
  cases c with
  | resetPinAsserted | resetPinReleased => cases ht; rfl
  | lineAcquired port =>
    rcases execLineAcquired_cases ht with rfl | ⟨-, -, rfl | rfl⟩
    · rfl
    · rfl
    · exact awaited_send _ _
  | lineLost port =>
    rcases execLineLost_cases ht with rfl | ⟨-, rfl⟩
    · rfl
    · exact awaited_send _ _
  | rxAbort cause =>
    rcases execRxAbort_cases ht with rfl | ⟨-, r, rfl⟩
    · rfl
    · exact awaited_send _ _
  | receiveSample f =>
    rcases execReceiveSample_cases ht with rfl | ⟨-, ⟨-, rfl⟩ | ⟨-, rfl⟩⟩
    · rfl
    · exact awaited_ifRoom f ((awaited_routeSample _ f).trans (awaited_deliver _))
    · exact awaited_ifRoom f (awaited_routeLost _ f)
  | receiveDamaged f =>
    rcases execReceiveDamaged_cases ht with rfl | ⟨-, -, rfl⟩
    · rfl
    · refine awaited_ifRoom f ((awaited_send _ _).trans ?_)
      split
      · exact awaited_routeLost _ f
      · rfl
  | receiveCommand f => exact awaited_receiveCommand ht
  | receiveReply f =>
    rcases execReceiveReply_cases ht with rfl | ⟨-, rfl | rfl⟩
    · rfl
    · exact awaited_send _ _
    · exact awaited_ifRoom f rfl
  | receiveEnumerate f =>
    rcases execReceiveEnumerate_cases ht with rfl | ⟨-, -, rfl⟩
    · rfl
    · exact awaited_ifRoom f (awaited_routeEnumerate _ f)
  | receiveForeign f =>
    rcases execReceiveForeign_cases ht with rfl | ⟨-, ⟨-, rfl⟩ | ⟨-, rfl⟩⟩
    · rfl
    · exact awaited_ifRoom f (awaited_send _ _)
    · exact awaited_ifRoom f rfl
  | sampleEvaluation =>
    rcases execSampleEvaluation_cases ht with rfl | ⟨-, f, rest, -, -, rfl⟩
    · rfl
    · exact awaited_evaluate s f
  | lostSample =>
    rcases execLostSample_cases ht with rfl | ⟨-, rest, -, rfl⟩
    · rfl
    · exact awaited_send _ _
  | sendForwardBegin => rcases execSendForwardBegin_cases ht with rfl | ⟨-, -, -, rfl⟩ <;> rfl
  | sendReplyBegin => rcases execSendReplyBegin_cases ht with rfl | ⟨-, r, rest, -, rfl⟩ <;> rfl
  | frameForwarded =>
    rcases execFrameForwarded_cases ht with rfl | ⟨-, -, rfl⟩
    · rfl
    · exact awaited_send _ _
  | replySent =>
    rcases execReplySent_cases ht with rfl | ⟨-, rfl⟩
    · rfl
    · exact awaited_send _ _
  | outDiscard =>
    rcases execOutDiscard_cases ht with rfl | ⟨-, -, -, rfl⟩
    · rfl
    · exact awaited_send _ _
  | replyExpired position =>
    rcases execReplyExpired_cases ht with rfl | ⟨-, r, l, -, rfl⟩
    · rfl
    · exact awaited_send _ _
  | identify | readAxis | readTrack | readPool | setAttentionMask | setReplyLifetime =>
    cases ht; exact awaited_beginsIf (fun _ => awaited_complete _ _ _)
  | readStatus | ackAttention =>
    cases ht; exact awaited_beginsIf (fun _ => (awaited_complete _ _ _).trans (awaited_deliver s))
  | readFault | clearFault =>
    cases ht; exact awaited_beginsIf (fun _ => (awaited_complete _ _ _).trans (awaited_atRead s))
  | readCounters =>
    cases ht
    refine awaited_beginsIf (fun _ => ?_)
    split <;> exact (awaited_complete _ _ _).trans (awaited_atCount s)
  | readWindows =>
    cases ht
    refine awaited_beginsIf (fun _ => ?_)
    simp only
    split <;> exact awaited_complete s _ _
  | defineAxis | clearAxis | defineTrack | clearTrack | defineStatusSlot =>
    cases ht; exact awaited_beginsIf (fun _ => awaited_edit s _ _)
  | loadWindows => cases ht; exact awaited_beginsIf (awaited_loadWindows s)
  | stageCopy | stageClear => cases ht; exact awaited_beginsIf (fun _ => awaited_startStaged s _ _)
  | commit => cases ht; exact awaited_beginsIf (fun _ => awaited_startCommit s _)
  | cancelCommit =>
    cases ht
    refine awaited_beginsIf (fun _ => ?_)
    split <;> exact awaited_complete _ _ _
  | bypass | resume =>
    cases ht
    refine awaited_beginsIf (fun _ => ?_)
    split
    · rfl
    · exact awaited_complete s _ _
  | releaseAddress =>
    rcases execReleaseAddress_cases ht with ⟨-, -, rfl⟩ | rfl
    · rfl
    · refine awaited_beginsIf (fun _ => ?_)
      split <;> exact awaited_complete s.nextPause _ _
  | resetTables | resetAll | unknownCommand => cases ht; exact awaited_beginsIf (fun _ => rfl)
  | validationComplete =>
    rcases execValidationComplete_cases ht with rfl | ⟨-, -, o, -, rfl⟩
    · rfl
    · exact awaited_finishValidation s o
  | copyComplete =>
    rcases execCopyComplete_cases ht with rfl | ⟨-, -, rfl⟩
    · rfl
    · exact awaited_complete _ _ _
  | clearComplete =>
    rcases execClearComplete_cases ht with rfl | ⟨-, -, rfl⟩
    · rfl
    · exact awaited_complete _ _ _
  | commitDrop =>
    rcases execCommitDrop_cases ht with rfl | ⟨-, ⟨-, rfl | rfl⟩ | ⟨-, rfl⟩⟩
    · rfl
    · exact awaited_dropCommit s.nextPause
    · exact (awaited_replyDropped _).trans (awaited_dropCommit s.nextPause)
    · exact awaited_replyDropped s
  | dynamicRecordClear last =>
    rcases execDynamicRecordClear_cases ht with rfl | ⟨-, next, -, rfl⟩
    · rfl
    · exact awaited_foldl awaited_resumeStep _ s
  | seTableReset last =>
    rcases execSeTableReset_cases ht with rfl | ⟨-, level, next, -, rfl⟩
    · rfl
    · exact awaited_foldl (fun u g => awaited_resetStep u level g) _ s

/-! ### No row stops the part (log entry 1) -/

/-- Each row answers a next state on every branch of its definition: in the states that admit it, its effect, and
elsewhere the state as it is. -/
theorem exec_next (c : Instr) (s : State) : ∃ t, exec c s = .next t := by
  cases c with
  | receiveSample | receiveDamaged | receiveEnumerate | receiveForeign | sendReplyBegin =>
    simp only [exec, execReceiveSample, execReceiveDamaged, execReceiveEnumerate, execReceiveForeign,
      execSendReplyBegin]
    split
    · split <;> exact ⟨_, rfl⟩
    · exact ⟨s, rfl⟩
  | receiveCommand | receiveReply =>
    simp only [exec, execReceiveCommand, execReceiveReply]
    split
    · split
      · split_ifs <;> exact ⟨_, rfl⟩
      · exact ⟨s, rfl⟩
    · exact ⟨s, rfl⟩
  | lineAcquired | lineLost | rxAbort | sendForwardBegin | frameForwarded | outDiscard | copyComplete | clearComplete
  | releaseAddress =>
    simp only [exec, execLineAcquired, execLineLost, execRxAbort, execSendForwardBegin, execFrameForwarded,
      execOutDiscard, execCopyComplete, execClearComplete, execReleaseAddress]
    split_ifs <;> exact ⟨_, rfl⟩
  | sampleEvaluation | lostSample | replySent | replyExpired | validationComplete | commitDrop | dynamicRecordClear
  | seTableReset =>
    simp only [exec, execSampleEvaluation, execLostSample, execReplySent, execReplyExpired, execValidationComplete,
      execCommitDrop, execDynamicRecordClear, execSeTableReset]
    split
    · exact ⟨s, rfl⟩
    · split <;> exact ⟨_, rfl⟩
  | _ => exact ⟨_, rfl⟩

/-- Settles O2: each row ends in a next state, and that state awaits what the one before it did. -/
theorem everyCommandEndsInANextState : Obligations.EveryCommandEndsInANextState := fun c s =>
  have ⟨t, ht⟩ := exec_next c s
  ⟨t, ht, awaited_eq_iff.mp (awaited_of_exec ht)⟩

/-- Settles O1, by the definition of a step. -/
theorem stepRunsFrontCommand : Obligations.StepRunsFrontCommand := fun _ _ _ => rfl

end Sys2Proof.Proofs
